-- ==== Sys2Proof/Word.lean ====
section
/-! DEFINITION. The words of the engine: symbols, bytes, command and response words, tables, and the
plainest accesses to them (00_scope.md R4 to R6). -/

namespace Sys2Proof

/-- A symbol of the 16-symbol alphabet (00_scope.md R4, R8): 4 bits, so that a value outside
`[0,16)` cannot be written down (40_permutation_lut.md R79). -/
abbrev Nibble := BitVec 4

/-- A data byte (`DATA_W`, R4). -/
abbrev Byte := BitVec 8

/-- A command word (`CMD_W`, R4, 30_encoding.md R47). -/
abbrev CmdWord := BitVec 16

/-- A response word (`RSP_W`, R4, 30_encoding.md R50). -/
abbrev RspWord := BitVec 16

/-- A table: a total function from index 0..15 to a symbol, as plain data (R6). -/
abbrev Table := Vector Nibble 16

/-- `T[c]`: one cell of a table. The index is a symbol, so it is always in range (20_memory.md R31). -/
def cell (T : Table) (c : Nibble) : Nibble := T[c.toNat]'c.isLt

/-- The table whose cell `i` is `f i`. -/
def tableOf (f : Nibble → Nibble) : Table := Vector.ofFn fun i => f (BitVec.ofFin i)

/-- The table every cell of which is 0: the reset content of a configuration table (10_state.md R24). -/
def zeroTable : Table := Vector.replicate 16 0#4

end Sys2Proof
end

