-- ==== Sys2Proof/Config.lean ====
section
/-! DEFINITION. What is fixed when an engine is built (00_scope.md R4), and the one value the spec
leaves without a result. -/

namespace Sys2Proof

/-- `N_ROTORS` of the engine that `Machine.State` holds: 3, the default of 00_scope.md R4. Every
operation and every command is written for any number of rotors (`Machine.Engine N`); only `State`
and what is built on it takes this value. DESIGN CHOICE, log 1. -/
abbrev Config.nRotors : Nat := 3

/-- The legal range of `N_ROTORS` (00_scope.md R4): 3 to 8. -/
def Config.legalRotorCount (n : Nat) : Bool := decide (3 ≤ n ∧ n ≤ 8)

/-- `ALPHABET`: the ordered sequence 0..15, identity index = value (00_scope.md R8, R25 b). -/
def Config.alphabet : List Nibble := [0, 1, 2, 3, 4, 5, 6, 7, 8, 9, 10, 11, 12, 13, 14, 15]

/-- What a rotor's forward look-up gives for a symbol that its wiring does not hold: the spec gives
no value (93_implementation_defined.md U2) and no reachable state asks for one
(41_config_and_init.md R92). A free value: nothing constrains it. DESIGN CHOICE, log 8. -/
opaque Config.absentForward : Table → Nibble → Nibble

end Sys2Proof
end

