-- ==== Sys2Proof/Syntax.lean ====
section
/-! DEFINITION. The twelve commands (30_encoding.md R52), with the operand fields of R48. -/

namespace Sys2Proof

/-- One constructor per row of spec/opcode_table.json. The fields have the widths of 30_encoding.md
R48 and are unsigned; a rotor number `k` has 3 bits and is legal only below `N_ROTORS`
(WellFormed.lean). -/
inductive Instr where
  /-- NOP (44_status_readback.md R120). -/
  | nop
  /-- LDROT k, i, v (41_config_and_init.md R85). -/
  | ldrot (k : BitVec 3) (i v : Nibble)
  /-- LDOFF k, v (R86). -/
  | ldoff (k : BitVec 3) (v : Nibble)
  /-- LDREF i, v (R87). -/
  | ldref (i v : Nibble)
  /-- LDPAN i, v (R88). -/
  | ldpan (i v : Nibble)
  /-- INIT (R89, R90). -/
  | init
  /-- ENCB d (42_encipher_datapath.md R102). -/
  | encb (d : Byte)
  /-- STEP (43_rotor_stepper.md R111). -/
  | step
  /-- ENC d (R112). -/
  | enc (d : Byte)
  /-- RDST (44_status_readback.md R121). -/
  | rdst
  /-- RDCTR b (R122). -/
  | rdctr (b : BitVec 2)
  /-- RDROT k, i (R123). -/
  | rdrot (k : BitVec 3) (i : Nibble)
deriving DecidableEq, Repr

/-- The `OP` field of a command (30_encoding.md R52). -/
def Instr.opcode : Instr → BitVec 4
  | .nop => 0x0
  | .ldrot _ _ _ => 0x1
  | .ldoff _ _ => 0x2
  | .ldref _ _ => 0x3
  | .ldpan _ _ => 0x4
  | .init => 0x5
  | .encb _ => 0x6
  | .step => 0x7
  | .enc _ => 0x8
  | .rdst => 0x9
  | .rdctr _ => 0xA
  | .rdrot _ _ => 0xB

end Sys2Proof
end

