-- ==== Sys2Proof/WellFormed.lean ====
section
/-! DEFINITION. Which commands are legal (30_encoding.md R48): the fields have their exact widths, so
the one check left is that a rotor number is below the number of rotors. -/

namespace Sys2Proof

/-- A rotor number field names a rotor of an engine with `N` rotors (30_encoding.md R48, 20_memory.md R36). -/
def rotorLegal (N : Nat) (k : BitVec 3) : Bool := decide (k.toNat < N)

/-- A command is legal on an engine with `N` rotors. An illegal one is still decoded (R53 step 1) and
then refused with ILLEGAL_CMD (R53 step 3). -/
def Instr.legalFor (N : Nat) : Instr → Bool
  | .nop => true
  | .ldrot k _ _ => rotorLegal N k
  | .ldoff k _ => rotorLegal N k
  | .ldref _ _ => true
  | .ldpan _ _ => true
  | .init => true
  | .encb _ => true
  | .step => true
  | .enc _ => true
  | .rdst => true
  | .rdctr _ => true
  | .rdrot k _ => rotorLegal N k

/-- A well-formed command of the engine that `Machine.State` holds. -/
def Instr.wellFormed (i : Instr) : Bool := i.legalFor Config.nRotors

end Sys2Proof
end

