-- ==== Sys2Proof/Decode.lean ====
section
/-! DEFINITION. The decoder, total on 16-bit words (30_encoding.md R53), and the encoder, both from the
formats of R47, the fields of R48 and the opcode map of R52. -/

namespace Sys2Proof

/-- Why a word is no command (30_encoding.md R54 a and b). The engine refuses both in the same way,
with ILLEGAL_CMD. DESIGN CHOICE, log 10. -/
inductive IllegalWord where
  /-- `OP` is 0xC to 0xF (R54 a). -/
  | reservedOpcode
  /-- `OP` is 0x0 to 0xB and a reserved bit of that command's format is set (R54 b). -/
  | reservedBit
deriving DecidableEq, Repr

/-- What the decoder makes of a word. -/
inductive Decoded where
  | command (i : Instr)
  | illegal (why : IllegalWord)
deriving DecidableEq, Repr

/-- Field `OP`, bits 15:12 (R48). -/
def fieldOp (w : CmdWord) : BitVec 4 := w.extractLsb' 12 4

/-- Field `k`, bits 10:8 (R48). -/
def fieldK (w : CmdWord) : BitVec 3 := w.extractLsb' 8 3

/-- Field `i`, bits 7:4 (R48). -/
def fieldI (w : CmdWord) : Nibble := w.extractLsb' 4 4

/-- Field `v`, bits 3:0 (R48). -/
def fieldV (w : CmdWord) : Nibble := w.extractLsb' 0 4

/-- Field `d`, bits 7:0 (R48). -/
def fieldD (w : CmdWord) : Byte := w.extractLsb' 0 8

/-- Field `b`, bits 1:0 (R48). -/
def fieldB (w : CmdWord) : BitVec 2 := w.extractLsb' 0 2

/-- A row of the opcode map (R52): a word is that command exactly when its bits under `mask` are
`pattern`; `build` reads the operand fields. -/
structure OpcodeRow where
  pattern : CmdWord
  mask : CmdWord
  build : CmdWord → Instr

/-- `(w and mask) = match` (R52). -/
def OpcodeRow.holds (r : OpcodeRow) (w : CmdWord) : Bool := w &&& r.mask == r.pattern

/-- The opcode map, in the order of R52. -/
def opcodeTable : List OpcodeRow := [
  ⟨0x0000, 0xFFFF, fun _ => .nop⟩,
  ⟨0x1000, 0xF800, fun w => .ldrot (fieldK w) (fieldI w) (fieldV w)⟩,
  ⟨0x2000, 0xF8F0, fun w => .ldoff (fieldK w) (fieldV w)⟩,
  ⟨0x3000, 0xFF00, fun w => .ldref (fieldI w) (fieldV w)⟩,
  ⟨0x4000, 0xFF00, fun w => .ldpan (fieldI w) (fieldV w)⟩,
  ⟨0x5000, 0xFFFF, fun _ => .init⟩,
  ⟨0x6000, 0xFF00, fun w => .encb (fieldD w)⟩,
  ⟨0x7000, 0xFFFF, fun _ => .step⟩,
  ⟨0x8000, 0xFF00, fun w => .enc (fieldD w)⟩,
  ⟨0x9000, 0xFFFF, fun _ => .rdst⟩,
  ⟨0xA000, 0xFFFC, fun w => .rdctr (fieldB w)⟩,
  ⟨0xB000, 0xF80F, fun w => .rdrot (fieldK w) (fieldI w)⟩]

/-- Which of the two kinds of illegal word a word that matches no row is (R54). -/
def illegalKind (w : CmdWord) : IllegalWord :=
  if 0xC#4 ≤ fieldOp w then .reservedOpcode else .reservedBit

/-- The decoder: steps 1, 2 and 4 of R53. Step 3 (`k >= N_ROTORS`) depends on the number of rotors and
is the first check of the three commands that have a `k` (R85, R86, R123; log 9). -/
def decode (w : CmdWord) : Decoded :=
  match opcodeTable.find? (fun r => r.holds w) with
  | some r => .command (r.build w)
  | none => .illegal (illegalKind w)

/-- The word of a command, field after field from bit 15 down, by the formats of R47. -/
def encode : Instr → CmdWord
  | .nop => 0x0#4 ++ 0#1 ++ 0#3 ++ 0#4 ++ 0#4
  | .ldrot k i v => 0x1#4 ++ 0#1 ++ k ++ i ++ v
  | .ldoff k v => 0x2#4 ++ 0#1 ++ k ++ 0#4 ++ v
  | .ldref i v => 0x3#4 ++ 0#1 ++ 0#3 ++ i ++ v
  | .ldpan i v => 0x4#4 ++ 0#1 ++ 0#3 ++ i ++ v
  | .init => 0x5#4 ++ 0#1 ++ 0#3 ++ 0#4 ++ 0#4
  | .encb d => 0x6#4 ++ 0#1 ++ 0#3 ++ d
  | .step => 0x7#4 ++ 0#1 ++ 0#3 ++ 0#4 ++ 0#4
  | .enc d => 0x8#4 ++ 0#1 ++ 0#3 ++ d
  | .rdst => 0x9#4 ++ 0#1 ++ 0#3 ++ 0#4 ++ 0#4
  | .rdctr b => 0xA#4 ++ 0#1 ++ 0#3 ++ 0#4 ++ 0#2 ++ b
  | .rdrot k i => 0xB#4 ++ 0#1 ++ k ++ i ++ 0#4

/-- The command word that holds the low `nbits` bits of `w`, as spec/opcode_table.json numbers them:
a command is one 16-bit word that crosses the port whole (20_memory.md R33, 30_encoding.md R56). -/
def tableWord (nbits w : Nat) : CmdWord := BitVec.ofNat 16 (w % 2 ^ nbits)

/-- The command the decoder reads from an opcode-table word; none where it refuses, and none for a
row wider than the one length there is (30_encoding.md R56). -/
def decodeTableWord (nbits w : Nat) : Option Instr :=
  if nbits ≤ 16 then
    match decode (tableWord nbits w) with
    | .command i => some i
    | .illegal _ => none
  else none

end Sys2Proof
end

