-- ==== Sys2Proof/Machine/State.lean ====
section
/-! DEFINITION. The whole state of one engine (10_state.md R10), the two sides of the host's port, the
reset state (R24), and the reasons a step can stop. -/

namespace Sys2Proof.Machine

/-- The state of one engine with `N` rotors: every element of 10_state.md R10 and no other.
`STATUS` (R20) is a view of the last four fields (`Engine.status`). -/
structure Engine (N : Nat) where
  /-- `ROT[k][i]`: the live rotors, rotor 0 outermost (R11). -/
  rot : Vector Table N
  /-- `PAN_O`: the panel's `originalWiring` (R12). -/
  panO : Table
  /-- `PAN_W`: the panel's `wiring` (R12). -/
  panW : Table
  /-- `REF_W`: the reflector, value-indexed (R13). -/
  refW : Table
  /-- `CTR`: the step counter, modulo 2^32 (R14). -/
  ctr : BitVec 32
  /-- `CFG_ROT[k][i]`: the static rotor tables (R16). -/
  cfgRot : Vector Table N
  /-- `CFG_OFF[k]`: the rotors' initial offsets (R17). -/
  cfgOff : Vector Nibble N
  /-- `CFG_REF[i]`: the static reflector table (R18). -/
  cfgRef : Table
  /-- `CFG_PAN[i]`: the static panel table (R19). -/
  cfgPan : Table
  /-- `READY`, STATUS bit 0 (R20, R22). -/
  ready : Bool
  /-- `ERR`, STATUS bit 1, sticky (R20). -/
  err : Bool
  /-- `ERRCODE`, STATUS bits 4:2 (R20). -/
  errCode : BitVec 3
  /-- `ERRINFO`, STATUS bits 7:5 (R20). -/
  errInfo : BitVec 3
deriving DecidableEq, Repr

/-- The reset state of an engine (10_state.md R24, 70_reset_and_hazards.md R150). The spec leaves the
four live tables unspecified after reset; 0 in every cell is the model's: DESIGN CHOICE, log 2. -/
def Engine.reset (N : Nat) : Engine N where
  rot := Vector.replicate N zeroTable
  panO := zeroTable
  panW := zeroTable
  refW := zeroTable
  ctr := 0#32
  cfgRot := Vector.replicate N zeroTable
  cfgOff := Vector.replicate N 0#4
  cfgRef := zeroTable
  cfgPan := zeroTable
  ready := false
  err := false
  errCode := 0#3
  errInfo := 0#3

/-- The codes of the engine's one fault mechanism (60_exceptions.md R130); their 3-bit values are
`RefuseCode.bits`. A refusal of the engine is a next state, not a stop of the model. -/
inductive RefuseCode where
  /-- 1: the word matches no command, or a rotor number is out of range (R134). -/
  | illegalCmd
  /-- 2: no machine has been constructed (R135). -/
  | notReady
  /-- 3: a static rotor table is no permutation (R136). -/
  | badRotorTable
  /-- 4: the static reflector table is no permutation (R136). -/
  | badReflectorTable
  /-- 5: the reflector would not be a fixed-point-free involution (R136). -/
  | badReflectorPairing
  /-- 6: the static panel table is no permutation (R136). -/
  | badPanelTable
deriving DecidableEq, Repr

/-- One thing the host does at the port (00_scope.md R9.8): present a command word, or assert reset
between two commands (70_reset_and_hazards.md R151). -/
inductive HostEvent where
  | command (w : CmdWord)
  | reset
deriving DecidableEq, Repr

/-- The engine and the two sides of its port. `pending` and `responses` are the model's own fields:
the host's future actions and the host's record of the response words (logs 3 and 4). -/
structure State where
  /-- The engine (10_state.md R10), with the default number of rotors. -/
  engine : Engine Config.nRotors
  /-- What the host does next, oldest first (20_memory.md R38). -/
  pending : List HostEvent
  /-- Every response word given so far, oldest first (30_encoding.md R46). -/
  responses : List RspWord
deriving DecidableEq, Repr

/-- The machine right after reset: the engine's reset state, nothing presented, nothing answered. -/
def State.reset : State where
  engine := Engine.reset Config.nRotors
  pending := []
  responses := []

/-- The faults that stop this machine: none (log 16). Every command terminates and gives a response, the
engine never halts (30_encoding.md R46, 60_exceptions.md R133, 70_reset_and_hazards.md R164). -/
inductive Fault where
deriving DecidableEq, Repr

/-- The reasons this model gives no meaning. -/
inductive Refusal where
  /-- Raised only by an arm of `exec` for a command without a meaning yet; no arm raises it. Safe. -/
  | notModelled (mnemonic : String)
deriving DecidableEq, Repr

/-- What a step of this machine answers. -/
abbrev Result := Host.Outcome State Fault Refusal

end Sys2Proof.Machine
end

