-- ==== Sys2Proof/Machine/Flags.lean ====
section
/-! DEFINITION. The status register (10_state.md R20, R22) and the sticky error record
(60_exceptions.md R132). The engine has no arithmetic flags (R22). -/

namespace Sys2Proof.Machine

/-- The 3-bit value of a refusal code (60_exceptions.md R130). -/
def RefuseCode.bits : RefuseCode → BitVec 3
  | .illegalCmd => 1#3
  | .notReady => 2#3
  | .badRotorTable => 3#3
  | .badReflectorTable => 4#3
  | .badReflectorPairing => 5#3
  | .badPanelTable => 6#3

/-- `STATUS = {ERRINFO, ERRCODE, ERR, READY}` (10_state.md R20, 44_status_readback.md R121). -/
def Engine.status {N : Nat} (e : Engine N) : Byte :=
  e.errInfo ++ e.errCode ++ BitVec.ofBool e.err ++ BitVec.ofBool e.ready

/-- The sticky record: the first refusal since reset sets `ERR`, `ERRCODE` and `ERRINFO`; a later one
leaves them (60_exceptions.md R132). -/
def Engine.recordRefusal {N : Nat} (e : Engine N) (code : RefuseCode) (info : BitVec 3) : Engine N :=
  if e.err then e else { e with err := true, errCode := code.bits, errInfo := info }

end Sys2Proof.Machine
end

