-- ==== Sys2Proof/Machine/Operands.lean ====
section
/-! DEFINITION. The operand forms of the commands: direct access to one cell of a table by fields of
the command word (20_memory.md R31, 44_status_readback.md R125), one byte of `CTR` (R33), and the two
nibbles of a data byte (R32). -/

namespace Sys2Proof.Machine

/-- `T[i] <- v`: the table with one cell written (00_scope.md R6). -/
def setCell (T : Table) (i v : Nibble) : Table := tableOf fun j => if j = i then v else cell T j

/-- The rotor that a `k` field names, when there is one (20_memory.md R36). -/
def rotorIndex (N : Nat) (k : BitVec 3) : Option (Fin N) :=
  if h : k.toNat < N then some ⟨k.toNat, h⟩ else none

/-- `CFG_ROT[k][i] <- v` (41_config_and_init.md R85). -/
def Engine.setCfgRot {N : Nat} (e : Engine N) (k : Fin N) (i v : Nibble) : Engine N :=
  { e with cfgRot := e.cfgRot.set k (setCell e.cfgRot[k] i v) }

/-- `CFG_OFF[k] <- v` (R86). -/
def Engine.setCfgOff {N : Nat} (e : Engine N) (k : Fin N) (v : Nibble) : Engine N :=
  { e with cfgOff := e.cfgOff.set k v }

/-- `CFG_REF[i] <- v` (R87). -/
def Engine.setCfgRef {N : Nat} (e : Engine N) (i v : Nibble) : Engine N :=
  { e with cfgRef := setCell e.cfgRef i v }

/-- `CFG_PAN[i] <- v` (R88). -/
def Engine.setCfgPan {N : Nat} (e : Engine N) (i v : Nibble) : Engine N :=
  { e with cfgPan := setCell e.cfgPan i v }

/-- `ROT[k][i]` zero-extended to a data byte (44_status_readback.md R123, 30_encoding.md R51). -/
def Engine.rotByte {N : Nat} (e : Engine N) (k : Fin N) (i : Nibble) : Byte := 0#4 ++ cell e.rot[k] i

/-- `CTR[8b+7 : 8b]`, byte 0 least significant (20_memory.md R33). -/
def Engine.ctrByte {N : Nat} (e : Engine N) (b : BitVec 2) : Byte := e.ctr.extractLsb' (8 * b.toNat) 8

/-- `p1 = d[7:4]`, the high nibble (20_memory.md R32). -/
def highNibble (d : Byte) : Nibble := d.extractLsb' 4 4

/-- `p2 = d[3:0]`, the low nibble (R32). -/
def lowNibble (d : Byte) : Nibble := d.extractLsb' 0 4

/-- `{p1, p2}` (R32). -/
def joinNibbles (p1 p2 : Nibble) : Byte := p1 ++ p2

end Sys2Proof.Machine
end

