-- ==== Sys2Proof/Machine/Ops.lean ====
section
/-! DEFINITION. The shared operations of the commands: completing with data, being refused (the
engine's one exception), the two checks that refuse, and the lifting of an engine operation to the
whole state. An engine operation maps an engine to the engine after it and the response word
(30_encoding.md R46). -/

namespace Sys2Proof.Machine

/-- The response word of a completed command: `{0, 000, 0, 000, data}` (30_encoding.md R50). -/
def dataResponse (data : Byte) : RspWord := 0#1 ++ 0#3 ++ 0#1 ++ 0#3 ++ data

/-- The response word of a refused command: `{1, code, 0, info, 0x00}` (R50, 60_exceptions.md R131). -/
def refuseResponse (code : RefuseCode) (info : BitVec 3) : RspWord := 1#1 ++ code.bits ++ 0#1 ++ info ++ 0x00#8

/-- `respond(data)` (00_scope.md R7): the command completes, leaving the engine as `e`. -/
def Engine.respond {N : Nat} (data : Byte) (e : Engine N) : Engine N × RspWord := (e, dataResponse data)

/-- `raise Refuse(code, info)` (00_scope.md R7, 60_exceptions.md R131): TAKING THE EXCEPTION. Nothing of
the engine changes but the sticky record; the response carries the command's own code. There is no
handler, no saved state and no return (R133): the next accepted command runs normally. -/
def Engine.refuse {N : Nat} (code : RefuseCode) (info : BitVec 3) (e : Engine N) : Engine N × RspWord :=
  (e.recordRefusal code info, refuseResponse code info)

/-- The `READY` gate of ENCB, STEP, ENC and RDROT (10_state.md R22, 60_exceptions.md R135). -/
def Engine.whenReady {N : Nat} (f : Engine N → Engine N × RspWord) (e : Engine N) : Engine N × RspWord :=
  if e.ready then f e else e.refuse .notReady 0#3

/-- The rotor number check of LDROT, LDOFF and RDROT (30_encoding.md R53 step 3, 60_exceptions.md R134):
before any other check (R137). -/
def Engine.withRotor {N : Nat} (k : BitVec 3) (f : Fin N → Engine N → Engine N × RspWord) (e : Engine N) :
    Engine N × RspWord :=
  match rotorIndex N k with
  | some k => f k e
  | none => e.refuse .illegalCmd 0#3

/-- One command at the port: the engine operation runs and its response word joins the record, exactly
one response for one command, in order (30_encoding.md R46). -/
def transact (f : Engine Config.nRotors → Engine Config.nRotors × RspWord) (s : State) : Result :=
  .next { s with engine := (f s.engine).1, responses := s.responses ++ [(f s.engine).2] }

/-- A word that is no command: refused with ILLEGAL_CMD and info 0 (30_encoding.md R53 step 2, R54,
60_exceptions.md R134). -/
def execIllegal (s : State) : Result := transact (Engine.refuse .illegalCmd 0#3) s

/-- Nothing is presented: the engine is idle with all state retained (60_exceptions.md R145, log 5). -/
def idle (s : State) : Result := .next s

/-- The host asserts reset: the engine takes its reset state whatever it held, and no response is
produced (70_reset_and_hazards.md R150, R151). -/
def resetEngine (s : State) : State := { s with engine := Engine.reset Config.nRotors }

end Sys2Proof.Machine
end

