-- ==== Sys2Proof/Machine/ConfigLoad.lean ====
section
/-! DEFINITION. The configuration loads LDROT, LDOFF, LDREF and LDPAN (41_config_and_init.md R85 to R88):
they write one configuration cell, whether or not a machine exists, and no live state (20_memory.md R40). -/

namespace Sys2Proof.Machine

/-- LDROT k, i, v (R85). -/
def Engine.ldrot {N : Nat} (k : BitVec 3) (i v : Nibble) : Engine N → Engine N × RspWord :=
  Engine.withRotor k fun k e => (e.setCfgRot k i v).respond 0#8

/-- LDOFF k, v (R86). -/
def Engine.ldoff {N : Nat} (k : BitVec 3) (v : Nibble) : Engine N → Engine N × RspWord :=
  Engine.withRotor k fun k e => (e.setCfgOff k v).respond 0#8

/-- LDREF i, v (R87). -/
def Engine.ldref {N : Nat} (i v : Nibble) (e : Engine N) : Engine N × RspWord := (e.setCfgRef i v).respond 0#8

/-- LDPAN i, v (R88). -/
def Engine.ldpan {N : Nat} (i v : Nibble) (e : Engine N) : Engine N × RspWord := (e.setCfgPan i v).respond 0#8

def execLdrot (k : BitVec 3) (i v : Nibble) (s : State) : Result := transact (Engine.ldrot k i v) s
def execLdoff (k : BitVec 3) (v : Nibble) (s : State) : Result := transact (Engine.ldoff k v) s
def execLdref (i v : Nibble) (s : State) : Result := transact (Engine.ldref i v) s
def execLdpan (i v : Nibble) (s : State) : Result := transact (Engine.ldpan i v) s

end Sys2Proof.Machine
end

