-- ==== Sys2Proof/Machine/Permutation.lean ====
section
/-! DEFINITION. The sub-block `permutation_lut`: the pure functions over tables that the commands are
built from (40_permutation_lut.md R65 to R77). -/

namespace Sys2Proof.Machine

/-- `is_perm(T)`: every symbol occurs in exactly one cell (R65). -/
def isPerm (T : Table) : Bool := Config.alphabet.all fun v => T.toList.count v == 1

/-- `pos(T, v)`: the least index whose cell holds `v`, if any (R66). -/
def pos (T : Table) (v : Nibble) : Option Nibble := Config.alphabet.find? fun i => cell T i == v

/-- `applyForward(T, v)` (R67). -/
def applyForward (T : Table) (v : Nibble) : Option Nibble := pos T v

/-- `applyBackward(T, c)` (R68). -/
def applyBackward (T : Table) (c : Nibble) : Nibble := cell T c

/-- `pairswap(T)`: neighbours at even and odd index exchanged, `U[i] = T[i xor 1]` (R69). -/
def pairswap (T : Table) : Table := tableOf fun i => cell T (i ^^^ 1#4)

/-- `rotl(T, p)`: `U[i] = T[(i + p) mod 16]`, a 4-bit add with the carry discarded (R70, R80). -/
def rotl (T : Table) (p : Nat) : Table := tableOf fun i => cell T (i + BitVec.ofNat 4 p)

/-- `rotor_forward(W, c) = pos(W, c)`: the position index is the returned symbol (R71). On a wiring
that is no permutation `pos` may find nothing; the spec gives no symbol there and the model leaves it
free (U2, log 8). -/
def rotorForward (W : Table) (c : Nibble) : Nibble := (applyForward W c).getD (Config.absentForward W c)

/-- `rotor_backward(W, c) = W[c]` (R72). -/
def rotorBackward (W : Table) (c : Nibble) : Nibble := applyBackward W c

/-- `rotor_rotate(W) = rotl(W, 1)` (R73). -/
def rotorRotate (W : Table) : Table := rotl W 1

/-- `commutate(O, P, c)`: find `c` in the original wiring and return the symbol of the wiring at that
position; a symbol not found is returned unchanged (R74). -/
def commutate (O P : Table) (c : Nibble) : Nibble :=
  match pos O c with
  | some p => cell P p
  | none => c

/-- `reflect(R, c) = R[c]`, value-indexed (R76). -/
def reflect (R : Table) (c : Nibble) : Nibble := cell R c

/-- `is_reflector(R)`: an involution with no fixed point (R77). -/
def isReflector (R : Table) : Bool :=
  Config.alphabet.all fun x => cell R (cell R x) == x && cell R x != x

end Sys2Proof.Machine
end

