-- ==== Sys2Proof/Machine/Encipher.lean ====
section
/-! DEFINITION. The sub-block `enigma_byte_encipher_datapath`: the nibble chain, the byte, and ENCB
(42_encipher_datapath.md R100 to R103). -/

namespace Sys2Proof.Machine

/-- The forward pass, rotor 0 first (R101). -/
def rotorsForward {N : Nat} (rot : Vector Table N) (c : Nibble) : Nibble :=
  rot.toList.foldl (fun c W => rotorForward W c) c

/-- The backward pass, rotor N-1 first (R101). -/
def rotorsBackward {N : Nat} (rot : Vector Table N) (c : Nibble) : Nibble :=
  rot.toList.foldr (fun W c => rotorBackward W c) c

/-- `encipher_nibble(S, x)` (R101): panel, rotors forward, reflector, rotors backward, panel. -/
def Engine.encipherNibble {N : Nat} (e : Engine N) (x : Nibble) : Nibble :=
  commutate e.panO e.panW
    (rotorsBackward e.rot (reflect e.refW (rotorsForward e.rot (commutate e.panO e.panW x))))

/-- `encipher_byte(S, d)` (R103): both nibbles through the chain on the same state. -/
def Engine.encipherByte {N : Nat} (e : Engine N) (d : Byte) : Byte :=
  joinNibbles (e.encipherNibble (highNibble d)) (e.encipherNibble (lowNibble d))

/-- ENCB d (R102): enciphers and does not step. -/
def Engine.encb {N : Nat} (d : Byte) : Engine N → Engine N × RspWord :=
  Engine.whenReady fun e => e.respond (e.encipherByte d)

def execEncb (d : Byte) (s : State) : Result := transact (Engine.encb d) s

end Sys2Proof.Machine
end

