-- ==== Sys2Proof/Machine/Init.lean ====
section
/-! DEFINITION. INIT: the checks of 41_config_and_init.md R89 and the construction of R90. -/

namespace Sys2Proof.Machine

/-- The least rotor whose static table is no permutation (R89, first check). -/
def Engine.badRotor {N : Nat} (e : Engine N) : Option (Fin N) :=
  (List.finRange N).find? fun k => !isPerm e.cfgRot[k]

/-- The first check of R89 that fails, with its code and info value: rotors ascending, then the
reflector table, the reflector pairing, the panel table. -/
def Engine.initFailure {N : Nat} (e : Engine N) : Option (RefuseCode × BitVec 3) :=
  match e.badRotor with
  | some k => some (.badRotorTable, BitVec.ofNat 3 k.val)
  | none =>
    if !isPerm e.cfgRef then some (.badReflectorTable, 0#3)
    else if !isReflector (pairswap e.cfgRef) then some (.badReflectorPairing, 0#3)
    else if !isPerm e.cfgPan then some (.badPanelTable, 0#3)
    else none

/-- The construction of R90: the live machine is built from the configuration tables. -/
def Engine.construct {N : Nat} (e : Engine N) : Engine N :=
  { e with
    rot := Vector.ofFn fun k : Fin N => rotl e.cfgRot[k] e.cfgOff[k].toNat
    panO := e.cfgPan
    panW := pairswap e.cfgPan
    refW := pairswap e.cfgRef
    ctr := 0#32
    ready := true }

/-- INIT: a failed check clears `READY` and refuses (R89, `fail`); else the machine is built (R90).
Never NOT_READY: legal in any state (R91). -/
def Engine.init {N : Nat} (e : Engine N) : Engine N × RspWord :=
  match e.initFailure with
  | some (code, info) => { e with ready := false }.refuse code info
  | none => e.construct.respond 0#8

def execInit (s : State) : Result := transact Engine.init s

end Sys2Proof.Machine
end

