-- ==== Sys2Proof/Machine/Status.lean ====
section
/-! DEFINITION. Status and read-back: NOP, RDST, RDCTR, RDROT (44_status_readback.md R120 to R123). None
changes any state when it completes. -/

namespace Sys2Proof.Machine

/-- NOP (R120). -/
def Engine.nop {N : Nat} (e : Engine N) : Engine N × RspWord := e.respond 0#8

/-- RDST (R121). -/
def Engine.rdst {N : Nat} (e : Engine N) : Engine N × RspWord := e.respond e.status

/-- RDCTR b (R122): works whether or not a machine exists. -/
def Engine.rdctr {N : Nat} (b : BitVec 2) (e : Engine N) : Engine N × RspWord := e.respond (e.ctrByte b)

/-- RDROT k, i (R123): ILLEGAL_CMD is tested before NOT_READY. -/
def Engine.rdrot {N : Nat} (k : BitVec 3) (i : Nibble) : Engine N → Engine N × RspWord :=
  Engine.withRotor k fun k => Engine.whenReady fun e => e.respond (e.rotByte k i)

def execNop (s : State) : Result := transact Engine.nop s
def execRdst (s : State) : Result := transact Engine.rdst s
def execRdctr (b : BitVec 2) (s : State) : Result := transact (Engine.rdctr b) s
def execRdrot (k : BitVec 3) (i : Nibble) (s : State) : Result := transact (Engine.rdrot k i) s

end Sys2Proof.Machine
end

