-- ==== Sys2Proof/Machine/Stepper.lean ====
section
/-! DEFINITION. The sub-block `rotor_stepper`: the counter and the carry rule, STEP, and ENC
(43_rotor_stepper.md R110 to R112). -/

namespace Sys2Proof.Machine

/-- `step_rotors(S)` (R110): the counter goes up modulo 2^32, and rotor k rotates when the new value is
a multiple of 16^k (the exponent is k: 90_conflicts.md C1). -/
def Engine.stepRotors {N : Nat} (e : Engine N) : Engine N :=
  { e with
    ctr := e.ctr + 1#32
    rot := Vector.ofFn fun k : Fin N =>
      if (e.ctr + 1#32).toNat % 16 ^ k.val = 0 then rotorRotate e.rot[k] else e.rot[k] }

/-- STEP (R111). -/
def Engine.stepOnce {N : Nat} : Engine N → Engine N × RspWord :=
  Engine.whenReady fun e => e.stepRotors.respond 0#8

/-- ENC d (R112): the byte is enciphered with the state before the step. -/
def Engine.enc {N : Nat} (d : Byte) : Engine N → Engine N × RspWord :=
  Engine.whenReady fun e => e.stepRotors.respond (e.encipherByte d)

def execStep (s : State) : Result := transact Engine.stepOnce s
def execEnc (d : Byte) (s : State) : Result := transact (Engine.enc d) s

end Sys2Proof.Machine
end

