-- ==== Sys2Proof/Machine/Dispatch.lean ====
section
/-! DEFINITION. The meaning of each command, one arm per constructor. -/

namespace Sys2Proof.Machine

def exec (i : Instr) (s : State) : Host.Outcome State Fault Refusal :=
  match i with
  | .nop => Sys2Proof.Machine.execNop s
  | .ldrot k j v => Sys2Proof.Machine.execLdrot k j v s
  | .ldoff k v => Sys2Proof.Machine.execLdoff k v s
  | .ldref j v => Sys2Proof.Machine.execLdref j v s
  | .ldpan j v => Sys2Proof.Machine.execLdpan j v s
  | .init => Sys2Proof.Machine.execInit s
  | .encb d => Sys2Proof.Machine.execEncb d s
  | .step => Sys2Proof.Machine.execStep s
  | .enc d => Sys2Proof.Machine.execEnc d s
  | .rdst => Sys2Proof.Machine.execRdst s
  | .rdctr b => Sys2Proof.Machine.execRdctr b s
  | .rdrot k j => Sys2Proof.Machine.execRdrot k j s

end Sys2Proof.Machine
end

