-- ==== Sys2Proof/Machine/Step.lean ====
section
/-! DEFINITION. One step of the machine: the host's next event (20_memory.md R38). There is no program
counter and no fetch (10_state.md R21): commands are pushed by the host. -/

namespace Sys2Proof.Machine

/-- One step. With nothing presented the engine is idle with all state retained (60_exceptions.md R145,
log 5). A command word is taken from the port, decoded (30_encoding.md R53) and executed atomically. A
reset takes effect between commands (70_reset_and_hazards.md R151, log 6). -/
def step (s : State) : Host.Outcome State Fault Refusal :=
  match s.pending with
  | [] => idle s
  | .reset :: rest => .next (resetEngine { s with pending := rest })
  | .command w :: rest =>
    match decode w with
    | .command i => exec i { s with pending := rest }
    | .illegal _ => execIllegal { s with pending := rest }

/-- The state whose very next step runs the command word that holds these opcode-table bits: the host
presents it before anything else it was going to do (log 7). -/
def State.withFetchWord (s : State) (nbits w : Nat) : State :=
  { s with pending := .command (tableWord nbits w) :: s.pending }

end Sys2Proof.Machine
end

