-- ==== Sys2Proof/Machine/Assembler.lean ====
section
/-! DEFINITION. The assembly language that test programs are written in (30_encoding.md R57) and the five
pseudo-commands (R58). It is software: the engine sees only the words. -/

namespace Sys2Proof.Machine

/-- One assembly line after reading: operands are natural numbers as written, not yet checked against
their field's range. The last five are the pseudo-commands of R58. -/
inductive AsmLine where
  | nop
  | ldrot (k i v : Nat)
  | ldoff (k v : Nat)
  | ldref (i v : Nat)
  | ldpan (i v : Nat)
  | init
  | encb (d : Nat)
  | step
  | enc (d : Nat)
  | rdst
  | rdctr (b : Nat)
  | rdrot (k i : Nat)
  /-- `.word 0xNNNN` -/
  | word (w : Nat)
  | ldrott (k : Nat) (t : List Nat)
  | ldreft (t : List Nat)
  | ldpant (t : List Nat)
  | encs (bytes : List Nat)
  | stepn (n : Nat)
deriving DecidableEq, Repr

/-- A word, if every operand is in its field's range: the assembler rejects, it never truncates (R57). -/
def asmWord (inRange : Bool) (w : Nat) : Option CmdWord := if inRange then some (BitVec.ofNat 16 w) else none

/-- The one word of a command line, by the "word assembled" column of R57; none for a pseudo-command. -/
def assembleCommand : AsmLine → Option CmdWord
  | .nop => asmWord true 0x0000
  | .ldrot k i v => asmWord (k ≤ 7 ∧ i ≤ 15 ∧ v ≤ 15) (0x1000 ||| k <<< 8 ||| i <<< 4 ||| v)
  | .ldoff k v => asmWord (k ≤ 7 ∧ v ≤ 15) (0x2000 ||| k <<< 8 ||| v)
  | .ldref i v => asmWord (i ≤ 15 ∧ v ≤ 15) (0x3000 ||| i <<< 4 ||| v)
  | .ldpan i v => asmWord (i ≤ 15 ∧ v ≤ 15) (0x4000 ||| i <<< 4 ||| v)
  | .init => asmWord true 0x5000
  | .encb d => asmWord (d ≤ 255) (0x6000 ||| d)
  | .step => asmWord true 0x7000
  | .enc d => asmWord (d ≤ 255) (0x8000 ||| d)
  | .rdst => asmWord true 0x9000
  | .rdctr b => asmWord (b ≤ 3) (0xA000 ||| b)
  | .rdrot k i => asmWord (k ≤ 7 ∧ i ≤ 15) (0xB000 ||| k <<< 8 ||| i <<< 4)
  | .word w => asmWord (w ≤ 0xFFFF) w
  | .ldrott _ _ => none
  | .ldreft _ => none
  | .ldpant _ => none
  | .encs _ => none
  | .stepn _ => none

/-- The loads of a whole table, ascending index, when it has its 16 entries (R58). -/
def tableLoads (load : Nat → Nat → AsmLine) (t : List Nat) : Option (List AsmLine) :=
  if t.length = 16 then some (t.zipIdx.map fun p => load p.2 p.1) else none

/-- What a line stands for: a pseudo-command's expansion (R58), a command itself. -/
def expandLine : AsmLine → Option (List AsmLine)
  | .ldrott k t => tableLoads (AsmLine.ldrot k) t
  | .ldreft t => tableLoads AsmLine.ldref t
  | .ldpant t => tableLoads AsmLine.ldpan t
  | .encs bytes => some (bytes.map AsmLine.enc)
  | .stepn n => some (List.replicate n AsmLine.step)
  | .nop => some [.nop]
  | .ldrot k i v => some [.ldrot k i v]
  | .ldoff k v => some [.ldoff k v]
  | .ldref i v => some [.ldref i v]
  | .ldpan i v => some [.ldpan i v]
  | .init => some [.init]
  | .encb d => some [.encb d]
  | .step => some [.step]
  | .enc d => some [.enc d]
  | .rdst => some [.rdst]
  | .rdctr b => some [.rdctr b]
  | .rdrot k i => some [.rdrot k i]
  | .word w => some [.word w]

/-- The words of a line (R57, R58). -/
def assembleLine (l : AsmLine) : Option (List CmdWord) := do (← expandLine l).mapM assembleCommand

/-- The words of a program, line after line. -/
def assembleProgram (ls : List AsmLine) : Option (List CmdWord) := do return (← ls.mapM assembleLine).flatten

/-! ## Reading the text of a line (R57). What R57 does not say is DESIGN CHOICE, log 14. -/

/-- The pieces of a line: a run of plain characters, a comma, a brace, a quoted string. -/
inductive AsmToken where
  | plain (cs : List Char)
  | comma
  | openBrace
  | closeBrace
  | quoted (cs : List Char)
deriving DecidableEq, Repr

/-- Where the reader of a line is; the characters of an unfinished piece stand newest first. -/
inductive LexMode where
  | gap
  | inPlain (acc : List Char)
  | inQuote (acc : List Char)
  | inComment
deriving DecidableEq, Repr

/-- The reader: its mode and the pieces read, newest first. -/
structure Lexer where
  mode : LexMode
  done : List AsmToken
deriving DecidableEq, Repr

/-- Ends an unfinished run of plain characters. -/
def Lexer.closePlain (l : Lexer) : Lexer :=
  match l.mode with
  | .inPlain acc => ⟨.gap, .plain acc.reverse :: l.done⟩
  | .gap => l
  | .inQuote _ => l
  | .inComment => l

/-- A character outside quotes and comments. -/
def Lexer.pushPlain (l : Lexer) (c : Char) : Lexer :=
  if c = ';' then { l.closePlain with mode := .inComment }
  else if c = ' ' ∨ c = '\t' ∨ c = '\r' then l.closePlain
  else if c = ',' then ⟨.gap, .comma :: l.closePlain.done⟩
  else if c = Char.ofNat 0x7B then ⟨.gap, .openBrace :: l.closePlain.done⟩
  else if c = Char.ofNat 0x7D then ⟨.gap, .closeBrace :: l.closePlain.done⟩
  else if c = Char.ofNat 0x22 then { l.closePlain with mode := .inQuote [] }
  else
    match l.mode with
    | .inPlain acc => { l with mode := .inPlain (c :: acc) }
    | .gap => { l with mode := .inPlain [c] }
    | .inQuote _ => l
    | .inComment => l

/-- The next character of a line; `;` starts a comment to the end of the line (R57). -/
def Lexer.push (l : Lexer) (c : Char) : Lexer :=
  match l.mode with
  | .inComment => l
  | .inQuote acc =>
    if c = Char.ofNat 0x22 then ⟨.gap, .quoted acc.reverse :: l.done⟩ else { l with mode := .inQuote (c :: acc) }
  | .gap => l.pushPlain c
  | .inPlain _ => l.pushPlain c

/-- The pieces of a line; none when a quoted string is not closed. -/
def lexLine (cs : List Char) : Option (List AsmToken) :=
  let l := (cs.foldl Lexer.push ⟨.gap, []⟩).closePlain
  match l.mode with
  | .inQuote _ => none
  | .gap => some l.done.reverse
  | .inPlain _ => some l.done.reverse
  | .inComment => some l.done.reverse

/-- The value of a digit in a base up to 16. -/
def digitValue (base : Nat) (c : Char) : Option Nat :=
  let n := c.toNat
  let v := if 48 ≤ n ∧ n ≤ 57 then n - 48 else if 65 ≤ n ∧ n ≤ 70 then n - 55 else if 97 ≤ n ∧ n ≤ 102 then n - 87 else 16
  if v < base then some v else none

/-- A run of at least one digit in a base. -/
def readDigits (base : Nat) (cs : List Char) : Option Nat :=
  if cs.isEmpty then none else cs.foldlM (fun a c => do return a * base + (← digitValue base c)) 0

/-- A number: decimal, or hexadecimal with `0x` (R57). -/
def readNumber : List Char → Option Nat
  | '0' :: 'x' :: cs => readDigits 16 cs
  | cs => readDigits 10 cs

/-- Numbers separated by commas. -/
def readNumbers : List AsmToken → Option (List Nat)
  | [.plain cs] => do return [← readNumber cs]
  | .plain cs :: .comma :: ts => do return (← readNumber cs) :: (← readNumbers ts)
  | _ => none

/-- No operands, or numbers separated by commas. -/
def readOperands (ts : List AsmToken) : Option (List Nat) := if ts.isEmpty then some [] else readNumbers ts

/-- Numbers separated by commas, in braces. -/
def readTable : List AsmToken → Option (List Nat)
  | .openBrace :: ts => if ts.getLast? = some .closeBrace then readNumbers ts.dropLast else none
  | _ => none

/-- The operands of ENCS: numbers, or a quoted string standing for the ASCII codes of its characters in
order (R58). -/
def readBytes : List AsmToken → Option (List Nat)
  | [.quoted cs] => if cs.all (fun c => c.toNat < 128) then some (cs.map Char.toNat) else none
  | ts => readNumbers ts

/-- The line with this mnemonic and these number operands, in the order of R57. -/
def lineOfNumbers (name : List Char) (ns : List Nat) : Option AsmLine :=
  match ns with
  | [] =>
    if name = ['N', 'O', 'P'] then some .nop
    else if name = ['I', 'N', 'I', 'T'] then some .init
    else if name = ['S', 'T', 'E', 'P'] then some .step
    else if name = ['R', 'D', 'S', 'T'] then some .rdst
    else none
  | [a] =>
    if name = ['E', 'N', 'C', 'B'] then some (.encb a)
    else if name = ['E', 'N', 'C'] then some (.enc a)
    else if name = ['R', 'D', 'C', 'T', 'R'] then some (.rdctr a)
    else if name = ['S', 'T', 'E', 'P', 'N'] then some (.stepn a)
    else if name = ['.', 'w', 'o', 'r', 'd'] then some (.word a)
    else none
  | [a, b] =>
    if name = ['L', 'D', 'O', 'F', 'F'] then some (.ldoff a b)
    else if name = ['L', 'D', 'R', 'E', 'F'] then some (.ldref a b)
    else if name = ['L', 'D', 'P', 'A', 'N'] then some (.ldpan a b)
    else if name = ['R', 'D', 'R', 'O', 'T'] then some (.rdrot a b)
    else none
  | [a, b, c] => if name = ['L', 'D', 'R', 'O', 'T'] then some (.ldrot a b c) else none
  | _ => none

/-- The line that these pieces are, after its mnemonic. -/
def readLine (name : List Char) (ts : List AsmToken) : Option AsmLine :=
  if name = ['L', 'D', 'R', 'O', 'T', 'T'] then
    match ts with
    | .plain k :: .comma :: rest => do return .ldrott (← readNumber k) (← readTable rest)
    | _ => none
  else if name = ['L', 'D', 'R', 'E', 'F', 'T'] then do return .ldreft (← readTable ts)
  else if name = ['L', 'D', 'P', 'A', 'N', 'T'] then do return .ldpant (← readTable ts)
  else if name = ['E', 'N', 'C', 'S'] then do return .encs (← readBytes ts)
  else do lineOfNumbers name (← readOperands ts)

/-- The words of one line of text; a line without a mnemonic gives none. -/
def assembleTextLine (cs : List Char) : Option (List CmdWord) := do
  match ← lexLine cs with
  | [] => some []
  | .plain name :: ts => assembleLine (← readLine name ts)
  | _ => none

/-- The lines of a text. -/
def splitLines : List Char → List (List Char)
  | [] => [[]]
  | c :: cs =>
    match splitLines cs with
    | [] => [[c]]
    | l :: ls => if c = '\n' then [] :: l :: ls else (c :: l) :: ls

/-- The words of a program text, one command a line (R57). -/
def assembleText (cs : List Char) : Option (List CmdWord) := do
  return (← (splitLines cs).mapM assembleTextLine).flatten

end Sys2Proof.Machine
end

