-- ==== Sys2Proof/Machine/Transaction.lean ====
section
/-! DEFINITION. The transaction-level view of 30_encoding.md R46 for any number of rotors: a function from
the engine and an accepted word to the engine after it and the response word, and its run over a sequence
of words (43_rotor_stepper.md R113, R116). It is the same engine operations that `exec` lifts to `State`. -/

namespace Sys2Proof.Machine

/-- One decoded command on an engine with `N` rotors. -/
def Engine.command {N : Nat} (i : Instr) (e : Engine N) : Engine N × RspWord :=
  match i with
  | .nop => e.nop
  | .ldrot k i v => e.ldrot k i v
  | .ldoff k v => e.ldoff k v
  | .ldref i v => e.ldref i v
  | .ldpan i v => e.ldpan i v
  | .init => e.init
  | .encb d => e.encb d
  | .step => e.stepOnce
  | .enc d => e.enc d
  | .rdst => e.rdst
  | .rdctr b => e.rdctr b
  | .rdrot k i => e.rdrot k i

/-- One accepted word: R46's `exec : State x Word16 -> State x Word16`, total and deterministic. -/
def Engine.accept {N : Nat} (w : CmdWord) (e : Engine N) : Engine N × RspWord :=
  match decode w with
  | .command i => e.command i
  | .illegal _ => e.refuse .illegalCmd 0#3

/-- A sequence of accepted words: the engine after them and their responses, in order (20_memory.md R38). -/
def Engine.session {N : Nat} : List CmdWord → Engine N → Engine N × List RspWord
  | [], e => (e, [])
  | w :: ws, e => ((Engine.session ws (e.accept w).1).1, (e.accept w).2 :: (Engine.session ws (e.accept w).1).2)

/-- `n` stepping events (43_rotor_stepper.md R110). -/
def Engine.steps {N : Nat} : Nat → Engine N → Engine N
  | 0, e => e
  | n + 1, e => (Engine.steps n e).stepRotors

/-- `DATA`, bits 7:0 of a response word (30_encoding.md R50). -/
def responseData (r : RspWord) : Byte := r.extractLsb' 0 8

/-- `E`, bit 15 of a response word: the command was refused (R50). -/
def responseRefused (r : RspWord) : Bool := r.getLsbD 15

/-- `CODE`, bits 14:12 (R50). -/
def responseCode (r : RspWord) : BitVec 3 := r.extractLsb' 12 3

/-- `INFO`, bits 10:8 (R50). -/
def responseInfo (r : RspWord) : BitVec 3 := r.extractLsb' 8 3

/-- The words of a byte stream, one ENC per byte, in order (43_rotor_stepper.md R113). -/
def streamWords (bytes : List Byte) : List CmdWord := bytes.map fun d => encode (.enc d)

/-- The output stream: the `DATA` fields of the responses, in order (R113). -/
def streamData (rs : List RspWord) : List Byte := rs.map responseData

end Sys2Proof.Machine
end

