-- ==== Sys2Proof/Machine/Ports.lean ====
section
/-! DEFINITION. The ports of 30_encoding.md R45 and the handshake of R46 and 70_reset_and_hazards.md R150 and
R151, one clock cycle at a time, below the transaction level that `step` runs at. The latency is open (R164):
each cycle an input from outside says whether the command in flight is done, so every latency is some input
sequence. Log 15. -/

namespace Sys2Proof.Machine

/-- The input ports in one cycle, and whether the latency of a command in flight is over in it. -/
structure PortIn where
  rst : Bool
  cmdValid : Bool
  cmd : CmdWord
  done : Bool
deriving DecidableEq, Repr

/-- The output ports in one cycle; `rsp` is none in a cycle with `rsp_valid = 0`. -/
structure PortOut where
  cmdReady : Bool
  rsp : Option RspWord
deriving DecidableEq, Repr

/-- The engine behind its ports: at most one command is in flight (R46). -/
structure Ported (N : Nat) where
  engine : Engine N
  inFlight : Option CmdWord
deriving DecidableEq, Repr

/-- The outputs in a cycle: while `rst = 1` neither ready nor valid (R150); ready with nothing in flight; the
response of the command in flight in the one cycle in which it is done (R45, R46). -/
def Ported.outputs {N : Nat} (p : Ported N) (x : PortIn) : PortOut :=
  match x.rst, p.inFlight with
  | true, _ => ⟨false, none⟩
  | false, none => ⟨true, none⟩
  | false, some w => ⟨false, if x.done then some (p.engine.accept w).2 else none⟩

/-- The command accepted at the rising edge that ends a cycle: `rst = 0`, `cmd_valid = 1`, `cmd_ready = 1`
(R46). -/
def Ported.accepted {N : Nat} (p : Ported N) (x : PortIn) : Option CmdWord :=
  if !x.rst && x.cmdValid && (p.outputs x).cmdReady then some x.cmd else none

/-- The rising edge that ends a cycle: a reset, whatever was in flight (R150, R151); an acceptance; the
command in flight done, its whole effect at once; else nothing changes. -/
def Ported.edge {N : Nat} (p : Ported N) (x : PortIn) : Ported N :=
  match x.rst, p.inFlight with
  | true, _ => ⟨Engine.reset N, none⟩
  | false, none => ⟨p.engine, p.accepted x⟩
  | false, some w => if x.done then ⟨(p.engine.accept w).1, none⟩ else p

/-- The engine after a sequence of cycles. -/
def Ported.after {N : Nat} : List PortIn → Ported N → Ported N
  | [], p => p
  | x :: xs, p => Ported.after xs (p.edge x)

/-- The words accepted in a sequence of cycles, in order. -/
def Ported.acceptedWords {N : Nat} : List PortIn → Ported N → List CmdWord
  | [], _ => []
  | x :: xs, p => (p.accepted x).toList ++ Ported.acceptedWords xs (p.edge x)

/-- The response words presented in a sequence of cycles, in order. -/
def Ported.responses {N : Nat} : List PortIn → Ported N → List RspWord
  | [], _ => []
  | x :: xs, p => (p.outputs x).rsp.toList ++ Ported.responses xs (p.edge x)

end Sys2Proof.Machine
end

