-- ==== Sys2Proof/Safety.lean ====
section
/-! DEFINITION. The terms that claims about the engine are stated in: the invariants of 10_state.md R15
and 60_exceptions.md R132, well-formed response words, and which parts of two engines agree. -/

namespace Sys2Proof.Machine

/-- The invariants (a) to (c) of 10_state.md R15 on the live tables: every rotor a permutation, the
panel's tables permutations with `PAN_W = pairswap(PAN_O)`, the reflector a permutation that is a
fixed-point-free involution. -/
abbrev Engine.LiveOk {N : Nat} (e : Engine N) : Prop :=
  (∀ k : Fin N, isPerm e.rot[k] = true) ∧
  isPerm e.panO = true ∧ isPerm e.panW = true ∧ e.panW = pairswap e.panO ∧
  isPerm e.refW = true ∧ isReflector e.refW = true

/-- The sticky record is legal: no code without an error, codes 1 to 6 with one, an info value only
for a rotor table and then a rotor number (10_state.md R20, 60_exceptions.md R130, R132). -/
abbrev Engine.RecordOk {N : Nat} (e : Engine N) : Prop :=
  (e.err = false → e.errCode = 0 ∧ e.errInfo = 0) ∧
  (e.err = true → e.errCode ≠ 0 ∧ e.errCode ≠ 7 ∧
    (e.errCode ≠ 3 → e.errInfo = 0) ∧ (e.errCode = 3 → e.errInfo.toNat < N))

/-- A response word of 30_encoding.md R50: bit 11 is 0, code 7 is never given (60_exceptions.md R130,
U9), `E = 1` exactly when `CODE ≠ 0`, `DATA = 0` when refused, `INFO = 0` when completed. -/
abbrev ResponseOk (r : RspWord) : Prop :=
  r.getLsbD 11 = false ∧ responseCode r ≠ 7 ∧
  (responseRefused r = true ↔ responseCode r ≠ 0) ∧
  (responseRefused r = true → responseData r = 0) ∧
  (responseRefused r = false → responseInfo r = 0)

/-- The invariant of an engine: whenever `READY = 1` the live tables are legal (R15), and the sticky
record is legal. -/
abbrev Engine.Inv {N : Nat} (e : Engine N) : Prop := (e.ready = true → e.LiveOk) ∧ e.RecordOk

/-- The invariant of the machine: the engine's, and every response given is a legal response word. -/
abbrev State.Inv (s : State) : Prop := s.engine.Inv ∧ ∀ r ∈ s.responses, ResponseOk r

/-- Every check of INIT passes (41_config_and_init.md R89). -/
abbrev Engine.ConfigOk {N : Nat} (e : Engine N) : Prop :=
  (∀ k : Fin N, isPerm e.cfgRot[k] = true) ∧
  isPerm e.cfgRef = true ∧ isReflector (pairswap e.cfgRef) = true ∧ isPerm e.cfgPan = true

/-- The two engines hold the same live state (00_scope.md R8: the live tables and `CTR`). -/
abbrev Engine.SameLive {N : Nat} (a b : Engine N) : Prop :=
  a.rot = b.rot ∧ a.panO = b.panO ∧ a.panW = b.panW ∧ a.refW = b.refW ∧ a.ctr = b.ctr

/-- The two engines hold the same configuration state (R8). -/
abbrev Engine.SameConfig {N : Nat} (a b : Engine N) : Prop :=
  a.cfgRot = b.cfgRot ∧ a.cfgOff = b.cfgOff ∧ a.cfgRef = b.cfgRef ∧ a.cfgPan = b.cfgPan

/-- The two engines hold the same sticky error record (60_exceptions.md R132). -/
abbrev Engine.SameRecord {N : Nat} (a b : Engine N) : Prop :=
  a.err = b.err ∧ a.errCode = b.errCode ∧ a.errInfo = b.errInfo

/-- The state after one command that leaves the engine as `e` and is answered by `r`: the host's queue
is untouched and the response joins the record. -/
abbrev State.answered (s : State) (e : Engine Config.nRotors) (r : RspWord) : State :=
  { s with engine := e, responses := s.responses ++ [r] }

/-- A configuration cell, as a load names it (20_memory.md R31). -/
inductive ConfigCell where
  | rot (k : BitVec 3) (i : Nibble)
  | off (k : BitVec 3)
  | ref (i : Nibble)
  | pan (i : Nibble)
deriving DecidableEq, Repr

/-- The configuration cell a command writes: the four loads write one, no other command writes any
(10_state.md R10, "written by"). -/
def configTarget : Instr → Option ConfigCell
  | .ldrot k i _ => some (.rot k i)
  | .ldoff k _ => some (.off k)
  | .ldref i _ => some (.ref i)
  | .ldpan i _ => some (.pan i)
  | .nop => none
  | .init => none
  | .encb _ => none
  | .step => none
  | .enc _ => none
  | .rdst => none
  | .rdctr _ => none
  | .rdrot _ _ => none

end Sys2Proof.Machine
end

