-- ==== Sys2Proof/Certificates/Slice0/Obligations.lean ====
section
/-! DEFINITION. The statements for the provers, from the numbered rules of the spec. `Config.nRotors` is the
number of rotors of the engine in `State`; a statement over `Engine N` is about any number of rotors. -/

open Sys2Proof Sys2Proof.Machine

/-! ## Encoding -/

/-- 30_encoding.md R47, R48, R52, R53: every command, with every operand value, is read back from its word. -/
def Obligations.DecodeEncodeRoundTrip : Prop := ∀ i : Instr, decode (encode i) = .command i

/-- R47, R54: a word that decodes to a command is that command's word, so every bit shown as 0 in the
command's format is 0. -/
def Obligations.DecodedWordIsTheEncoding : Prop :=
  ∀ (w : CmdWord) (i : Instr), decode w = .command i → encode i = w

/-- R52: the twelve patterns are pairwise disjoint. -/
def Obligations.OpcodePatternsAreDisjoint : Prop :=
  opcodeTable.Pairwise fun r r' => ∀ w : CmdWord, ¬ (w &&& r.mask = r.pattern ∧ w &&& r'.mask = r'.pattern)

/-- R54: the illegal words are exactly those that no command encodes to; those with `OP` 0xC to 0xF are the
ones with a reserved opcode. (R54 c, a rotor number out of range, is `RotorNumberOutOfRangeIsRefused`.) -/
def Obligations.IllegalWordsAreTheUnencoded : Prop :=
  ∀ w : CmdWord,
    ((∃ why, decode w = .illegal why) ↔ ∀ i, encode i ≠ w) ∧
    (decode w = .illegal .reservedOpcode ↔ 0xC ≤ w.toNat / 2 ^ 12)

/-- R52, R54 and 95_test_vectors.md section 7: words written out from the patterns, and words with a
reserved bit or opcode. -/
def Obligations.ListedWordsDecode : Prop :=
  decode 0b0000_0000_0000_0000 = .command .nop ∧
  decode 0b0001_0010_1100_0011 = .command (.ldrot 2 12 3) ∧
  decode 0b0010_0010_0000_1111 = .command (.ldoff 2 15) ∧
  decode 0b0011_0000_1010_0101 = .command (.ldref 10 5) ∧
  decode 0b0101_0000_0000_0000 = .command .init ∧
  decode 0b0110_0000_1111_1110 = .command (.encb 0xFE) ∧
  decode 0b1000_0000_0100_1000 = .command (.enc 0x48) ∧
  decode 0b1010_0000_0000_0010 = .command (.rdctr 2) ∧
  decode 0b1011_0010_1111_0000 = .command (.rdrot 2 15) ∧
  decode 0x0001 = .illegal .reservedBit ∧ decode 0x1800 = .illegal .reservedBit ∧
  decode 0xA004 = .illegal .reservedBit ∧ decode 0xF000 = .illegal .reservedOpcode

/-- R57: the word assembled is the command's encoding, and an operand outside its field's range is
rejected, never truncated. -/
def Obligations.AssemblerEncodesOrRejects : Prop :=
  ∀ k i v d b : Nat,
    assembleCommand .nop = some (encode .nop) ∧
    assembleCommand (.ldrot k i v) =
      (if k ≤ 7 ∧ i ≤ 15 ∧ v ≤ 15 then some (encode (.ldrot (.ofNat 3 k) (.ofNat 4 i) (.ofNat 4 v))) else none) ∧
    assembleCommand (.ldoff k v) =
      (if k ≤ 7 ∧ v ≤ 15 then some (encode (.ldoff (.ofNat 3 k) (.ofNat 4 v))) else none) ∧
    assembleCommand (.ldref i v) =
      (if i ≤ 15 ∧ v ≤ 15 then some (encode (.ldref (.ofNat 4 i) (.ofNat 4 v))) else none) ∧
    assembleCommand (.ldpan i v) =
      (if i ≤ 15 ∧ v ≤ 15 then some (encode (.ldpan (.ofNat 4 i) (.ofNat 4 v))) else none) ∧
    assembleCommand .init = some (encode .init) ∧
    assembleCommand (.encb d) = (if d ≤ 255 then some (encode (.encb (.ofNat 8 d))) else none) ∧
    assembleCommand .step = some (encode .step) ∧
    assembleCommand (.enc d) = (if d ≤ 255 then some (encode (.enc (.ofNat 8 d))) else none) ∧
    assembleCommand .rdst = some (encode .rdst) ∧
    assembleCommand (.rdctr b) = (if b ≤ 3 then some (encode (.rdctr (.ofNat 2 b))) else none) ∧
    assembleCommand (.rdrot k i) =
      (if k ≤ 7 ∧ i ≤ 15 then some (encode (.rdrot (.ofNat 3 k) (.ofNat 4 i))) else none)

/-- R58: each pseudo-command expands to the sequence shown and to nothing else. -/
def Obligations.PseudoCommandsExpand : Prop :=
  (∀ (k : BitVec 3) (t : Table),
    assembleLine (.ldrott k.toNat (t.toList.map BitVec.toNat)) =
      some ((List.finRange 16).map fun i => encode (.ldrot k (.ofFin i) t[i]))) ∧
  (∀ t : Table,
    assembleLine (.ldreft (t.toList.map BitVec.toNat)) =
      some ((List.finRange 16).map fun i => encode (.ldref (.ofFin i) t[i]))) ∧
  (∀ t : Table,
    assembleLine (.ldpant (t.toList.map BitVec.toNat)) =
      some ((List.finRange 16).map fun i => encode (.ldpan (.ofFin i) t[i]))) ∧
  (∀ bytes : List Byte, assembleLine (.encs (bytes.map BitVec.toNat)) = some (streamWords bytes)) ∧
  (∀ n : Nat, assembleLine (.stepn n) = some (List.replicate n (encode .step)))

/-! ## The port and the step -/

/-- R46, R53: a step with a command word at the port that decodes to a command is that command's `exec`,
with the word taken from the host's queue. -/
def Obligations.StepRunsTheDecodedCommand : Prop :=
  ∀ (s : State) (w : CmdWord) (rest : List HostEvent) (i : Instr),
    s.pending = .command w :: rest → decode w = .command i → step s = exec i { s with pending := rest }

/-- R53 step 2, R54, 60_exceptions.md R134: a word that no command encodes to is answered 0x9000 whatever
the state, and changes nothing of the engine but the sticky record. -/
def Obligations.UndecodedWordIsRefused : Prop :=
  ∀ (s : State) (w : CmdWord) (rest : List HostEvent),
    s.pending = .command w :: rest → (∀ i, encode i ≠ w) →
    step s = .next
      { engine := if s.engine.err then s.engine else { s.engine with err := true, errCode := 1, errInfo := 0 }
        pending := rest
        responses := s.responses ++ [0x9000] }

/-- R46, R133, R145, R150: a step always answers a next state. With nothing presented nothing changes; a
command takes one word and gives one response; a reset gives none. -/
def Obligations.EveryStepCompletes : Prop :=
  ∀ s : State, ∃ t, step s = .next t ∧
    (s.pending = [] → t = s) ∧
    (∀ rest, s.pending = .reset :: rest → t.pending = rest ∧ t.responses = s.responses) ∧
    (∀ w rest, s.pending = .command w :: rest → t.pending = rest ∧ ∃ r, t.responses = s.responses ++ [r])

/-- 20_memory.md R38, 30_encoding.md R46: the machine, run over presented command words, is the
transaction-level function applied word by word: in order, one response each, nothing between. -/
def Obligations.QueuedCommandsRunInOrder : Prop :=
  ∀ (ws : List CmdWord) (rest : List HostEvent) (s : State),
    s.pending = ws.map HostEvent.command ++ rest →
    Sys2Proof.core.run ws.length s = .next
      { engine := (Engine.session ws s.engine).1
        pending := rest
        responses := s.responses ++ (Engine.session ws s.engine).2 }

/-- R45, R46, 70_reset_and_hazards.md R150, R151: the engine behind its ports, whatever the latency of each
command. Without a reset, the responses presented are those of the transaction-level function on the accepted
words, in order, all but the one of a command still in flight; with nothing in flight the engine is the one
that function reaches. With `rst = 1` nothing is accepted or answered and the edge gives the reset state,
whatever was in flight. The cycle in which a response is presented is the model's choice (log 15), and so are
the live tables of the reset state (log 2). -/
def Obligations.PortsRunTransactions : Prop :=
  ∀ (N : Nat) (e : Engine N) (xs : List PortIn),
    (let p : Ported N := ⟨e, none⟩
     let ws := Ported.acceptedWords xs p
     let q := Ported.after xs p
     (∀ x ∈ xs, x.rst = false) →
      Ported.responses xs p <+: (Engine.session ws e).2 ∧
      ws.length = (Ported.responses xs p).length + q.inFlight.toList.length ∧
      (∀ w, q.inFlight = some w → ws.getLast? = some w ∧ q.engine = (Engine.session ws.dropLast e).1) ∧
      (q.inFlight = none → q.engine = (Engine.session ws e).1)) ∧
    ∀ (p : Ported N) (x : PortIn), x.rst = true →
      p.outputs x = ⟨false, none⟩ ∧ p.accepted x = none ∧ p.edge x = ⟨Engine.reset N, none⟩

/-- R50: the fields of the two kinds of response word. -/
def Obligations.ResponseWordFields : Prop :=
  (∀ data : Byte,
    responseRefused (dataResponse data) = false ∧ responseCode (dataResponse data) = 0 ∧
    (dataResponse data).getLsbD 11 = false ∧ responseInfo (dataResponse data) = 0 ∧
    responseData (dataResponse data) = data) ∧
  (∀ (code : RefuseCode) (info : BitVec 3),
    responseRefused (refuseResponse code info) = true ∧ responseCode (refuseResponse code info) = code.bits ∧
    (refuseResponse code info).getLsbD 11 = false ∧ responseInfo (refuseResponse code info) = info ∧
    responseData (refuseResponse code info) = 0 ∧ code.bits ≠ 0 ∧ code.bits ≠ 7)

/-! ## Reset and invariants -/

/-- 10_state.md R24: the values the spec gives for reset. (The live tables, which it leaves unspecified, are
not in this statement; log 2.) -/
def Obligations.ResetValues : Prop :=
  let e := State.reset.engine
  e.ready = false ∧ e.err = false ∧ e.errCode = 0 ∧ e.errInfo = 0 ∧ e.ctr = 0 ∧
  (∀ (k : Fin Config.nRotors) (i : Nibble), cell e.cfgRot[k] i = 0) ∧
  (∀ k : Fin Config.nRotors, e.cfgOff[k] = 0) ∧
  (∀ i, cell e.cfgRef i = 0) ∧ (∀ i, cell e.cfgPan i = 0) ∧ e.status = 0

/-- 70_reset_and_hazards.md R150, R151: a reset by the host gives every element its reset value whatever the
engine held, and no response. -/
def Obligations.HostResetGivesTheResetValues : Prop :=
  ∀ (s : State) (rest : List HostEvent), s.pending = .reset :: rest →
    ∃ t, step s = .next t ∧ t.pending = rest ∧ t.responses = s.responses ∧
      t.engine.ready = false ∧ t.engine.err = false ∧ t.engine.errCode = 0 ∧ t.engine.errInfo = 0 ∧
      t.engine.ctr = 0 ∧
      (∀ (k : Fin Config.nRotors) (i : Nibble), cell t.engine.cfgRot[k] i = 0) ∧
      (∀ k : Fin Config.nRotors, t.engine.cfgOff[k] = 0) ∧
      (∀ i, cell t.engine.cfgRef i = 0) ∧ (∀ i, cell t.engine.cfgPan i = 0)

/-- The invariant holds at reset. -/
def Obligations.InvariantHoldsAtReset : Prop := State.reset.Inv

/-- 10_state.md R15 (a) to (c), R20, 60_exceptions.md R132, 30_encoding.md R50: every step keeps the
invariant: whenever READY = 1 the tables are legal, the sticky record is legal, and every response given is
a legal response word. -/
def Obligations.EveryStepKeepsTheInvariant : Prop :=
  ∀ s t : State, s.Inv → step s = .next t → t.Inv

/-! ## Refusals -/

/-- R131, R132: the effect of a refusal, for any code, info and number of rotors. -/
def Obligations.RefusalRecordsOnlyTheFirst : Prop :=
  ∀ (N : Nat) (e : Engine N) (code : RefuseCode) (info : BitVec 3),
    (e.err = false → (e.refuse code info).1 = { e with err := true, errCode := code.bits, errInfo := info }) ∧
    (e.err = true → (e.refuse code info).1 = e) ∧
    (e.refuse code info).2.toNat = 0x8000 + code.bits.toNat * 0x1000 + info.toNat * 0x100

/-- R132: once ERR is set, no command changes ERR, ERRCODE or ERRINFO. -/
def Obligations.NoCommandChangesARecordedError : Prop :=
  ∀ (i : Instr) (s : State), s.engine.err = true →
    ∃ t, exec i s = .next t ∧ t.engine.err = true ∧
      t.engine.errCode = s.engine.errCode ∧ t.engine.errInfo = s.engine.errInfo

/-- R132, R130: with no error recorded, a command sets ERR exactly when its own response is a refusal, and
ERRCODE and ERRINFO are then the response's. -/
def Obligations.FirstRefusalIsTheOneRecorded : Prop :=
  ∀ (i : Instr) (s : State), s.engine.err = false →
    ∃ t r, exec i s = .next t ∧ t.responses = s.responses ++ [r] ∧ t.engine.err = responseRefused r ∧
      t.engine.errCode = (if responseRefused r then responseCode r else s.engine.errCode) ∧
      t.engine.errInfo = (if responseRefused r then responseInfo r else s.engine.errInfo)

/-- R135, 10_state.md R22: with READY = 0, ENCB, STEP, ENC and RDROT are answered 0xA000 and change nothing
but the sticky record. -/
def Obligations.NotReadyCommandsAreRefused : Prop :=
  ∀ (s : State) (i : Instr), s.engine.ready = false →
    ((∃ d, i = .encb d) ∨ i = .step ∨ (∃ d, i = .enc d) ∨
      (∃ k j, i = .rdrot k j ∧ k.toNat < Config.nRotors)) →
    exec i s = .next (s.answered
      (if s.engine.err then s.engine else { s.engine with err := true, errCode := 2, errInfo := 0 }) 0xA000)

/-- R134, R137, 20_memory.md R36: a rotor number that is out of range is answered 0x9000, before the READY
check, and changes nothing but the sticky record. -/
def Obligations.RotorNumberOutOfRangeIsRefused : Prop :=
  ∀ (s : State) (k : BitVec 3) (i : Instr), Config.nRotors ≤ k.toNat →
    ((∃ j v, i = .ldrot k j v) ∨ (∃ v, i = .ldoff k v) ∨ (∃ j, i = .rdrot k j)) →
    exec i s = .next (s.answered
      (if s.engine.err then s.engine else { s.engine with err := true, errCode := 1, errInfo := 0 }) 0x9000)

/-- R89, R136, R137: INIT reports the first check that fails, in this order, clears READY and keeps everything
else but the sticky record. -/
def Obligations.InitReportsTheFirstFailure : Prop :=
  ∀ s : State,
    let e := s.engine
    let refusedWith (code info : BitVec 3) (r : RspWord) :=
      exec .init s = .next (s.answered
        (if e.err then { e with ready := false }
          else { e with ready := false, err := true, errCode := code, errInfo := info }) r)
    let rotorsOk := ∀ k : Fin Config.nRotors, isPerm e.cfgRot[k] = true
    (∀ k : Fin Config.nRotors, isPerm e.cfgRot[k] = false →
      (∀ j : Fin Config.nRotors, j < k → isPerm e.cfgRot[j] = true) →
      refusedWith 3 (.ofNat 3 k) (.ofNat 16 (0xB000 + 0x100 * k))) ∧
    (rotorsOk → isPerm e.cfgRef = false → refusedWith 4 0 0xC000) ∧
    (rotorsOk → isPerm e.cfgRef = true → isReflector (pairswap e.cfgRef) = false → refusedWith 5 0 0xD000) ∧
    (rotorsOk → isPerm e.cfgRef = true → isReflector (pairswap e.cfgRef) = true →
      isPerm e.cfgPan = false → refusedWith 6 0 0xE000)

/-! ## Configuration and construction -/

/-- 41_config_and_init.md R85: LDROT writes one cell of one static rotor table and nothing else. -/
def Obligations.LdrotWritesOneCell : Prop :=
  ∀ (s : State) (k : Fin Config.nRotors) (kf : BitVec 3) (i v : Nibble), kf.toNat = k.val →
    ∃ t, exec (.ldrot kf i v) s = .next t ∧
      cell t.engine.cfgRot[k] i = v ∧
      (∀ j, j ≠ i → cell t.engine.cfgRot[k] j = cell s.engine.cfgRot[k] j) ∧
      (∀ k' : Fin Config.nRotors, k' ≠ k → t.engine.cfgRot[k'] = s.engine.cfgRot[k']) ∧
      { t.engine with cfgRot := s.engine.cfgRot } = s.engine ∧
      t.pending = s.pending ∧ t.responses = s.responses ++ [0x0000]

/-- R86: LDOFF writes one offset and nothing else. -/
def Obligations.LdoffWritesOneOffset : Prop :=
  ∀ (s : State) (k : Fin Config.nRotors) (kf : BitVec 3) (v : Nibble), kf.toNat = k.val →
    ∃ t, exec (.ldoff kf v) s = .next t ∧
      t.engine.cfgOff[k] = v ∧
      (∀ k' : Fin Config.nRotors, k' ≠ k → t.engine.cfgOff[k'] = s.engine.cfgOff[k']) ∧
      { t.engine with cfgOff := s.engine.cfgOff } = s.engine ∧
      t.pending = s.pending ∧ t.responses = s.responses ++ [0x0000]

/-- R87, R88: LDREF and LDPAN write one cell of their table and nothing else, in any state. -/
def Obligations.LdrefAndLdpanWriteOneCell : Prop :=
  ∀ (s : State) (i v : Nibble),
    (∃ t, exec (.ldref i v) s = .next t ∧
      cell t.engine.cfgRef i = v ∧ (∀ j, j ≠ i → cell t.engine.cfgRef j = cell s.engine.cfgRef j) ∧
      { t.engine with cfgRef := s.engine.cfgRef } = s.engine ∧
      t.pending = s.pending ∧ t.responses = s.responses ++ [0x0000]) ∧
    (∃ t, exec (.ldpan i v) s = .next t ∧
      cell t.engine.cfgPan i = v ∧ (∀ j, j ≠ i → cell t.engine.cfgPan j = cell s.engine.cfgPan j) ∧
      { t.engine with cfgPan := s.engine.cfgPan } = s.engine ∧
      t.pending = s.pending ∧ t.responses = s.responses ++ [0x0000])

/-- R90: INIT, when every check passes, builds the live machine from the configuration, sets CTR to 0 and
READY to 1, answers 0x0000, and leaves the configuration and the sticky record. -/
def Obligations.InitConstructsTheMachine : Prop :=
  ∀ s : State, s.engine.ConfigOk →
    ∃ t, exec .init s = .next t ∧
      (∀ (k : Fin Config.nRotors) (i : Nibble),
        cell t.engine.rot[k] i =
          cell s.engine.cfgRot[k] (.ofNat 4 ((i.toNat + s.engine.cfgOff[k].toNat) % 16))) ∧
      t.engine.panO = s.engine.cfgPan ∧
      (∀ j : Fin 8,
        cell t.engine.panW (.ofNat 4 (2 * j)) = cell s.engine.cfgPan (.ofNat 4 (2 * j + 1)) ∧
        cell t.engine.panW (.ofNat 4 (2 * j + 1)) = cell s.engine.cfgPan (.ofNat 4 (2 * j)) ∧
        cell t.engine.refW (.ofNat 4 (2 * j)) = cell s.engine.cfgRef (.ofNat 4 (2 * j + 1)) ∧
        cell t.engine.refW (.ofNat 4 (2 * j + 1)) = cell s.engine.cfgRef (.ofNat 4 (2 * j))) ∧
      t.engine.ctr = 0 ∧ t.engine.ready = true ∧
      t.engine.SameConfig s.engine ∧ t.engine.SameRecord s.engine ∧
      t.pending = s.pending ∧ t.responses = s.responses ++ [0x0000]

/-- R92, with R15: after an INIT that leaves READY = 1 the live tables are legal, for any number of rotors. -/
def Obligations.SuccessfulInitGivesLegalTables : Prop :=
  ∀ (N : Nat) (e : Engine N), (e.init).1.ready = true → (e.init).1.LiveOk ∧ (e.init).1.ctr = 0

/-- R91: two successful INITs from identical configuration tables build identical live states, whatever
happened before. -/
def Obligations.InitForgetsThePast : Prop :=
  ∀ (N : Nat) (a b : Engine N), a.SameConfig b → (a.init).1.ready = true →
    (b.init).1.ready = true ∧ (a.init).1.SameLive (b.init).1

/-- 10_state.md R10 ("written by"): which command can change which element, over all commands and states. -/
def Obligations.EachElementHasItsWriters : Prop :=
  ∀ (i : Instr) (s t : State), exec i s = .next t →
    (t.engine.rot ≠ s.engine.rot → i = .init ∨ i = .step ∨ ∃ d, i = .enc d) ∧
    (t.engine.ctr ≠ s.engine.ctr → i = .init ∨ i = .step ∨ ∃ d, i = .enc d) ∧
    (t.engine.panO ≠ s.engine.panO → i = .init) ∧
    (t.engine.panW ≠ s.engine.panW → i = .init) ∧
    (t.engine.refW ≠ s.engine.refW → i = .init) ∧
    (t.engine.cfgRot ≠ s.engine.cfgRot → ∃ k j v, i = .ldrot k j v) ∧
    (t.engine.cfgOff ≠ s.engine.cfgOff → ∃ k v, i = .ldoff k v) ∧
    (t.engine.cfgRef ≠ s.engine.cfgRef → ∃ j v, i = .ldref j v) ∧
    (t.engine.cfgPan ≠ s.engine.cfgPan → ∃ j v, i = .ldpan j v)

/-- 10_state.md R20, R22, 44_status_readback.md R124: READY goes to 1 only by an INIT whose checks all pass, and
to 0 (short of a reset) only by an INIT that is refused. -/
def Obligations.OnlyInitChangesReady : Prop :=
  ∀ (i : Instr) (s t : State), exec i s = .next t →
    (s.engine.ready = false → t.engine.ready = true → i = .init ∧ s.engine.ConfigOk) ∧
    (s.engine.ready = true → t.engine.ready = false → i = .init ∧ ¬ s.engine.ConfigOk)

/-- 20_memory.md R40: a configuration write changes no live state and no answer of ENCB, ENC, STEP or RDROT. -/
def Obligations.ConfigurationWritesWaitForInit : Prop :=
  ∀ (N : Nat) (e : Engine N) (load use : Instr), configTarget load ≠ none →
    ((∃ d, use = .encb d) ∨ (∃ d, use = .enc d) ∨ use = .step ∨ ∃ k i, use = .rdrot k i) →
    (e.command load).1.SameLive e ∧
    ((e.command load).1.command use).2 = (e.command use).2 ∧
    ((e.command load).1.command use).1.SameLive (e.command use).1

/-- 30_encoding.md R58, 70_reset_and_hazards.md R155: loads of different cells may be issued in either order. -/
def Obligations.LoadsOfDifferentCellsCommute : Prop :=
  ∀ (N : Nat) (e : Engine N) (a b : Instr) (x y : ConfigCell),
    configTarget a = some x → configTarget b = some y → x ≠ y →
    ((e.command a).1.command b).1 = ((e.command b).1.command a).1

/-! ## The permutation primitives -/

/-- 40_permutation_lut.md R65: `is_perm`: every symbol in exactly one cell; equivalently, the cells are
pairwise different. -/
def Obligations.IsPermMeansEverySymbolOnce : Prop :=
  ∀ T : Table,
    (isPerm T = true ↔ ∀ v, ∃! i, cell T i = v) ∧
    (isPerm T = true ↔ ∀ i j, i ≠ j → cell T i ≠ cell T j)

/-- R66, R67, R68: `pos` is the least index that holds the symbol, or none. -/
def Obligations.PosFindsTheLeastIndex : Prop :=
  ∀ (T : Table) (v : Nibble),
    (∀ i, pos T v = some i ↔ cell T i = v ∧ ∀ j, j < i → cell T j ≠ v) ∧
    (pos T v = none ↔ ∀ i, cell T i ≠ v) ∧
    (∀ i, applyForward T v = some i ↔ pos T v = some i) ∧ (∀ c, applyBackward T c = cell T c)

/-- R69: the pair swap, its involution, and that it keeps permutations. -/
def Obligations.PairswapLaws : Prop :=
  ∀ T : Table,
    (∀ j : Fin 8, cell (pairswap T) (.ofNat 4 (2 * j)) = cell T (.ofNat 4 (2 * j + 1)) ∧
      cell (pairswap T) (.ofNat 4 (2 * j + 1)) = cell T (.ofNat 4 (2 * j))) ∧
    (∀ i, cell (pairswap T) i = cell T (i ^^^ 1)) ∧
    pairswap (pairswap T) = T ∧ (isPerm (pairswap T) = true ↔ isPerm T = true)

/-- R70: the cyclic left rotation and its laws. -/
def Obligations.RotationLaws : Prop :=
  ∀ (T : Table) (p q : Nat),
    (∀ i, cell (rotl T p) i = cell T (.ofNat 4 ((i.toNat + p) % 16))) ∧
    rotl T 0 = T ∧ rotl T p = rotl T (p % 16) ∧ rotl (rotl T p) q = rotl T (p + q) ∧ rotl T 16 = T ∧
    (isPerm (rotl T p) = true ↔ isPerm T = true)

/-- R73, 10_state.md R23: one rotation moves cell i+1 to cell i and cell 0 to cell 15, keeps permutations,
and the place of a symbol goes down by one modulo 16. -/
def Obligations.RotateMovesEachSymbolDown : Prop :=
  ∀ W : Table,
    (∀ i : Fin 15, cell (rotorRotate W) (.ofNat 4 i) = cell W (.ofNat 4 (i + 1))) ∧
    cell (rotorRotate W) 15 = cell W 0 ∧
    (isPerm W = true → isPerm (rotorRotate W) = true ∧
      ∀ v i, pos W v = some i → pos (rotorRotate W) v = some (i - 1))

/-- R78, R71, R72: forward and backward through a rotor are inverse to each other. -/
def Obligations.RotorPassesAreInverse : Prop :=
  ∀ (W : Table) (c : Nibble), isPerm W = true →
    rotorBackward W (rotorForward W c) = c ∧ rotorForward W (rotorBackward W c) = c ∧
    pos W c = some (rotorForward W c) ∧ rotorBackward W c = cell W c

/-- R74, R75: the panel exchanges the symbols of neighbouring cells of its static table, is an involution
without fixed points, and returns a symbol that its table lacks unchanged. -/
def Obligations.PanelExchangesNeighbours : Prop :=
  ∀ O : Table,
    (∀ (P : Table) (c : Nibble), (∀ i, cell O i ≠ c) → commutate O P c = c) ∧
    (isPerm O = true →
      (∀ j : Fin 8,
        commutate O (pairswap O) (cell O (.ofNat 4 (2 * j))) = cell O (.ofNat 4 (2 * j + 1)) ∧
        commutate O (pairswap O) (cell O (.ofNat 4 (2 * j + 1))) = cell O (.ofNat 4 (2 * j))) ∧
      ∀ c, commutate O (pairswap O) (commutate O (pairswap O) c) = c ∧ commutate O (pairswap O) c ≠ c)

/-- R76, R77: the reflector is value-indexed; the contract is a condition on the static table, it makes the
table a permutation, and it fails for the document's third rotor table. -/
def Obligations.ReflectorContract : Prop :=
  (∀ (S : Table) (x : Nibble), reflect (pairswap S) x = cell S (x ^^^ 1)) ∧
  (∀ (S : Table) (x : Nibble), reflect (pairswap S) x = x ↔ cell S (x ^^^ 1) = x) ∧
  (∀ R : Table, isReflector R = true ↔ ∀ x, reflect R (reflect R x) = x ∧ reflect R x ≠ x) ∧
  (∀ R : Table, isReflector R = true → isPerm R = true) ∧
  isPerm #v[5, 2, 8, 4, 1, 6, 9, 11, 14, 13, 12, 10, 3, 7, 0, 15] = true ∧
  isReflector (pairswap #v[5, 2, 8, 4, 1, 6, 9, 11, 14, 13, 12, 10, 3, 7, 0, 15]) = false

/-! ## The datapath -/

/-- 42_encipher_datapath.md R100, R101: the nine stages of one nibble on the three-rotor engine. -/
def Obligations.NibbleChainForThreeRotors : Prop :=
  ∀ (e : Engine 3) (x : Nibble),
    e.encipherNibble x =
      commutate e.panO e.panW (rotorBackward e.rot[0] (rotorBackward e.rot[1] (rotorBackward e.rot[2]
        (reflect e.refW (rotorForward e.rot[2] (rotorForward e.rot[1] (rotorForward e.rot[0]
          (commutate e.panO e.panW x))))))))

/-- R103, 20_memory.md R32: each nibble of the output byte is the chain of the same nibble of the input. -/
def Obligations.NibblesDoNotInteract : Prop :=
  ∀ (N : Nat) (e : Engine N) (d : Byte),
    (e.encipherByte d).toNat =
      16 * (e.encipherNibble (.ofNat 4 (d.toNat / 16))).toNat + (e.encipherNibble (.ofNat 4 (d.toNat % 16))).toNat

/-- R102: with READY = 1, ENCB answers the enciphered byte and changes nothing. -/
def Obligations.EncbAnswersAndChangesNothing : Prop :=
  ∀ (s : State) (d : Byte), s.engine.ready = true →
    exec (.encb d) s = .next (s.answered s.engine (0x00#8 ++ s.engine.encipherByte d))

/-- R104: with legal live tables the one-byte pass is its own inverse, for any number of rotors. -/
def Obligations.OneBytePassIsSelfReciprocal : Prop :=
  ∀ (N : Nat) (e : Engine N), e.LiveOk →
    (∀ x, e.encipherNibble (e.encipherNibble x) = x) ∧ (∀ d, e.encipherByte (e.encipherByte d) = d)

/-- R105: no symbol enciphers to itself, and the pass is a bijection. -/
def Obligations.NoSymbolEnciphersToItself : Prop :=
  ∀ (N : Nat) (e : Engine N), e.LiveOk →
    (∀ x, e.encipherNibble x ≠ x) ∧ (∀ d, e.encipherByte d ≠ d) ∧
    (∀ d, highNibble (e.encipherByte d) ≠ highNibble d ∧ lowNibble (e.encipherByte d) ≠ lowNibble d) ∧
    Function.Bijective e.encipherNibble ∧ Function.Bijective e.encipherByte

/-! ## The stepper -/

/-- 43_rotor_stepper.md R110: the counter goes up modulo 2^32; rotor k rotates exactly when the new counter
is a multiple of 16^k; nothing else changes; rotor 0 always rotates; for k from 1 to 7 the test is that the
low 4k bits of the new counter are zero. -/
def Obligations.SteppingRule : Prop :=
  ∀ (N : Nat) (e : Engine N),
    e.stepRotors.ctr.toNat = (e.ctr.toNat + 1) % 2 ^ 32 ∧
    (∀ k : Fin N, e.stepRotors.rot[k] =
      if e.stepRotors.ctr.toNat % 16 ^ k.val = 0 then rotorRotate e.rot[k] else e.rot[k]) ∧
    (∀ k : Fin N, k.val = 0 → e.stepRotors.rot[k] = rotorRotate e.rot[k]) ∧
    (∀ k : Fin N, k.val ≤ 7 →
      (e.stepRotors.ctr.toNat % 16 ^ k.val = 0 ↔ ∀ n, n < 4 * k.val → e.stepRotors.ctr.getLsbD n = false)) ∧
    { e.stepRotors with ctr := e.ctr, rot := e.rot } = e

/-- R111: with READY = 1, STEP is one stepping event, answered 0x0000; at CTR = 0xFFFFFFFF the counter
becomes 0 and every rotor rotates. -/
def Obligations.StepCommandSteps : Prop :=
  ∀ s : State, s.engine.ready = true →
    exec .step s = .next (s.answered s.engine.stepRotors 0x0000) ∧
    (s.engine.ctr = 0xFFFFFFFF → s.engine.stepRotors.ctr = 0 ∧
      ∀ k : Fin Config.nRotors, s.engine.stepRotors.rot[k] = rotorRotate s.engine.rot[k])

/-- R112, 70_reset_and_hazards.md R158: with READY = 1, ENC answers the byte enciphered with the state before
the step, and steps; ENCB d then STEP leaves the same engine, and ENCB d gives the same response. -/
def Obligations.EncEnciphersThenSteps : Prop :=
  ∀ (s : State) (d : Byte), s.engine.ready = true →
    exec (.enc d) s = .next (s.answered s.engine.stepRotors (0x00#8 ++ s.engine.encipherByte d)) ∧
    ((s.engine.command (.encb d)).1.command .step).1 = (s.engine.command (.enc d)).1 ∧
    (s.engine.command (.encb d)).2 = (s.engine.command (.enc d)).2

/-- R114: the closed form of the rotor positions after c stepping events from a successful INIT, for every
legal number of rotors and every c, past the counter's wrap too; rotor k's orientation has period 16^(k+1)
steps and the whole rotor state period 16^N steps. -/
def Obligations.ClosedFormOfRotorPositions : Prop :=
  ∀ (N : Nat) (e : Engine N) (c : Nat), N ≤ 8 → e.ConfigOk →
    (∀ k : Fin N, (Engine.steps c (e.init).1).rot[k] =
      rotl e.cfgRot[k] ((e.cfgOff[k].toNat + c / 16 ^ k.val) % 16)) ∧
    (Engine.steps c (e.init).1).ctr.toNat = c % 2 ^ 32 ∧
    (∀ k : Fin N, (Engine.steps (16 ^ (k.val + 1)) (e.init).1).rot[k] = (e.init).1.rot[k]) ∧
    (Engine.steps (c + 16 ^ N) (e.init).1).rot = (Engine.steps c (e.init).1).rot

/-- R113: a stream of ENC commands on a machine with READY = 1 gives one response per byte, none of them a
refusal, steps once per byte, and the j-th byte is enciphered after j steps. -/
def Obligations.StreamStepsOncePerByte : Prop :=
  ∀ (N : Nat) (e : Engine N) (bytes : List Byte), e.ready = true →
    (Engine.session (streamWords bytes) e).1 = Engine.steps bytes.length e ∧
    (Engine.session (streamWords bytes) e).2.length = bytes.length ∧
    ∀ (j : Nat) (h : j < bytes.length),
      (Engine.session (streamWords bytes) e).2[j]? =
        some (dataResponse ((Engine.steps j e).encipherByte bytes[j]))

/-- 70_reset_and_hazards.md R160: INIT followed by c STEP commands resumes a session at step count c: the
engine is the one that c ENC commands reach, whatever their bytes. -/
def Obligations.StepsResumeASession : Prop :=
  ∀ (N : Nat) (e : Engine N) (bytes : List Byte), e.ConfigOk →
    (Engine.session (encode .init :: List.replicate bytes.length (encode .step)) e).1 =
      (Engine.session (encode .init :: streamWords bytes) e).1

/-- R115: a session (INIT, then a stream) on an engine, and then a session that feeds it the output stream,
on the engine so reached or on any engine configured identically, gives the plaintext back. -/
def Obligations.SecondSessionDeciphersTheFirst : Prop :=
  ∀ (N : Nat) (a b : Engine N) (bytes : List Byte), a.ConfigOk →
    let first := Engine.session (encode .init :: streamWords bytes) a
    (b = first.1 ∨ b.SameConfig a) →
    streamData (Engine.session (encode .init :: streamWords (streamData first.2.tail)) b).2.tail = bytes

/-- R113: NOP, RDST, RDCTR, RDROT, ENCB and the loads do not disturb a stream: they change no live state and
do not clear or set READY. -/
def Obligations.OtherCommandsKeepTheLiveState : Prop :=
  ∀ (N : Nat) (e : Engine N) (i : Instr), i ≠ .init → i ≠ .step → (∀ d, i ≠ .enc d) →
    (e.command i).1.SameLive e ∧ (e.command i).1.ready = e.ready

/-! ## Independence -/

/-- 10_state.md R24, 43_rotor_stepper.md R116: with READY = 0 no response of any later command sequence
depends on what the live tables hold. -/
def Obligations.UnspecifiedTablesAreUnobservable : Prop :=
  ∀ (N : Nat) (a b : Engine N) (ws : List CmdWord), a.ready = false →
    { a with rot := b.rot, panO := b.panO, panW := b.panW, refW := b.refW } = b →
    (Engine.session ws a).2 = (Engine.session ws b).2

/-- R116, R91: once an INIT has succeeded, the responses depend on nothing of earlier sessions but the
configuration and the sticky error fields. -/
def Obligations.SessionsDependOnConfigurationOnly : Prop :=
  ∀ (N : Nat) (a b : Engine N) (ws : List CmdWord), a.ConfigOk → a.SameConfig b → a.SameRecord b →
    (Engine.session (encode .init :: ws) a).2 = (Engine.session (encode .init :: ws) b).2

/-! ## Status and read-back -/

/-- 44_status_readback.md R120: NOP answers 0x0000 in any state and changes nothing. -/
def Obligations.NopChangesNothing : Prop :=
  ∀ s : State, exec .nop s = .next (s.answered s.engine 0x0000)

/-- R121, 10_state.md R20: RDST answers STATUS, field by field, in any state and changes nothing. -/
def Obligations.RdstAnswersStatus : Prop :=
  ∀ s : State, ∃ r : RspWord, exec .rdst s = .next (s.answered s.engine r) ∧
    r.toNat = s.engine.ready.toNat + 2 * s.engine.err.toNat + 4 * s.engine.errCode.toNat +
      32 * s.engine.errInfo.toNat

/-- R122, 20_memory.md R33: RDCTR answers byte b of CTR, byte 0 least significant, in any state and changes
nothing. -/
def Obligations.RdctrAnswersOneByte : Prop :=
  ∀ (s : State) (b : BitVec 2), ∃ r : RspWord, exec (.rdctr b) s = .next (s.answered s.engine r) ∧
    r.toNat = s.engine.ctr.toNat / 256 ^ b.toNat % 256

/-- R123: with READY = 1 and a legal rotor number, RDROT answers the symbol at the position, zero-extended,
and changes nothing. -/
def Obligations.RdrotAnswersOneCell : Prop :=
  ∀ (s : State) (k : Fin Config.nRotors) (kf : BitVec 3) (i : Nibble),
    s.engine.ready = true → kf.toNat = k.val →
    ∃ r : RspWord, exec (.rdrot kf i) s = .next (s.answered s.engine r) ∧
      r.toNat = (rotorBackward s.engine.rot[k] i).toNat
end

