-- ==== Sys2Proof/Laws/State.lean ====
section
/-! SUPPORT. One lemma per field for each update of the state, so that no proof unfolds a record update. -/

namespace Sys2Proof.Machine

variable {N : Nat}

/-! ### setCfgRot -/

@[simp] theorem Engine.setCfgRot_rot (e : Engine N) (k : Fin N) (i v : Nibble) : (e.setCfgRot k i v).rot = e.rot := rfl
@[simp] theorem Engine.setCfgRot_panO (e : Engine N) (k : Fin N) (i v : Nibble) : (e.setCfgRot k i v).panO = e.panO := rfl
@[simp] theorem Engine.setCfgRot_panW (e : Engine N) (k : Fin N) (i v : Nibble) : (e.setCfgRot k i v).panW = e.panW := rfl
@[simp] theorem Engine.setCfgRot_refW (e : Engine N) (k : Fin N) (i v : Nibble) : (e.setCfgRot k i v).refW = e.refW := rfl
@[simp] theorem Engine.setCfgRot_ctr (e : Engine N) (k : Fin N) (i v : Nibble) : (e.setCfgRot k i v).ctr = e.ctr := rfl
@[simp] theorem Engine.setCfgRot_cfgRot (e : Engine N) (k : Fin N) (i v : Nibble) : (e.setCfgRot k i v).cfgRot = e.cfgRot.set k (setCell e.cfgRot[k] i v) := rfl
@[simp] theorem Engine.setCfgRot_cfgOff (e : Engine N) (k : Fin N) (i v : Nibble) : (e.setCfgRot k i v).cfgOff = e.cfgOff := rfl
@[simp] theorem Engine.setCfgRot_cfgRef (e : Engine N) (k : Fin N) (i v : Nibble) : (e.setCfgRot k i v).cfgRef = e.cfgRef := rfl
@[simp] theorem Engine.setCfgRot_cfgPan (e : Engine N) (k : Fin N) (i v : Nibble) : (e.setCfgRot k i v).cfgPan = e.cfgPan := rfl
@[simp] theorem Engine.setCfgRot_ready (e : Engine N) (k : Fin N) (i v : Nibble) : (e.setCfgRot k i v).ready = e.ready := rfl
@[simp] theorem Engine.setCfgRot_err (e : Engine N) (k : Fin N) (i v : Nibble) : (e.setCfgRot k i v).err = e.err := rfl
@[simp] theorem Engine.setCfgRot_errCode (e : Engine N) (k : Fin N) (i v : Nibble) : (e.setCfgRot k i v).errCode = e.errCode := rfl
@[simp] theorem Engine.setCfgRot_errInfo (e : Engine N) (k : Fin N) (i v : Nibble) : (e.setCfgRot k i v).errInfo = e.errInfo := rfl

/-! ### setCfgOff -/

@[simp] theorem Engine.setCfgOff_rot (e : Engine N) (k : Fin N) (v : Nibble) : (e.setCfgOff k v).rot = e.rot := rfl
@[simp] theorem Engine.setCfgOff_panO (e : Engine N) (k : Fin N) (v : Nibble) : (e.setCfgOff k v).panO = e.panO := rfl
@[simp] theorem Engine.setCfgOff_panW (e : Engine N) (k : Fin N) (v : Nibble) : (e.setCfgOff k v).panW = e.panW := rfl
@[simp] theorem Engine.setCfgOff_refW (e : Engine N) (k : Fin N) (v : Nibble) : (e.setCfgOff k v).refW = e.refW := rfl
@[simp] theorem Engine.setCfgOff_ctr (e : Engine N) (k : Fin N) (v : Nibble) : (e.setCfgOff k v).ctr = e.ctr := rfl
@[simp] theorem Engine.setCfgOff_cfgRot (e : Engine N) (k : Fin N) (v : Nibble) : (e.setCfgOff k v).cfgRot = e.cfgRot := rfl
@[simp] theorem Engine.setCfgOff_cfgOff (e : Engine N) (k : Fin N) (v : Nibble) : (e.setCfgOff k v).cfgOff = e.cfgOff.set k v := rfl
@[simp] theorem Engine.setCfgOff_cfgRef (e : Engine N) (k : Fin N) (v : Nibble) : (e.setCfgOff k v).cfgRef = e.cfgRef := rfl
@[simp] theorem Engine.setCfgOff_cfgPan (e : Engine N) (k : Fin N) (v : Nibble) : (e.setCfgOff k v).cfgPan = e.cfgPan := rfl
@[simp] theorem Engine.setCfgOff_ready (e : Engine N) (k : Fin N) (v : Nibble) : (e.setCfgOff k v).ready = e.ready := rfl
@[simp] theorem Engine.setCfgOff_err (e : Engine N) (k : Fin N) (v : Nibble) : (e.setCfgOff k v).err = e.err := rfl
@[simp] theorem Engine.setCfgOff_errCode (e : Engine N) (k : Fin N) (v : Nibble) : (e.setCfgOff k v).errCode = e.errCode := rfl
@[simp] theorem Engine.setCfgOff_errInfo (e : Engine N) (k : Fin N) (v : Nibble) : (e.setCfgOff k v).errInfo = e.errInfo := rfl

/-! ### setCfgRef -/

@[simp] theorem Engine.setCfgRef_rot (e : Engine N) (i v : Nibble) : (e.setCfgRef i v).rot = e.rot := by rw [Engine.setCfgRef]
@[simp] theorem Engine.setCfgRef_panO (e : Engine N) (i v : Nibble) : (e.setCfgRef i v).panO = e.panO := by rw [Engine.setCfgRef]
@[simp] theorem Engine.setCfgRef_panW (e : Engine N) (i v : Nibble) : (e.setCfgRef i v).panW = e.panW := by rw [Engine.setCfgRef]
@[simp] theorem Engine.setCfgRef_refW (e : Engine N) (i v : Nibble) : (e.setCfgRef i v).refW = e.refW := by rw [Engine.setCfgRef]
@[simp] theorem Engine.setCfgRef_ctr (e : Engine N) (i v : Nibble) : (e.setCfgRef i v).ctr = e.ctr := by rw [Engine.setCfgRef]
@[simp] theorem Engine.setCfgRef_cfgRot (e : Engine N) (i v : Nibble) : (e.setCfgRef i v).cfgRot = e.cfgRot := by rw [Engine.setCfgRef]
@[simp] theorem Engine.setCfgRef_cfgOff (e : Engine N) (i v : Nibble) : (e.setCfgRef i v).cfgOff = e.cfgOff := by rw [Engine.setCfgRef]
@[simp] theorem Engine.setCfgRef_cfgRef (e : Engine N) (i v : Nibble) : (e.setCfgRef i v).cfgRef = setCell e.cfgRef i v := by rw [Engine.setCfgRef]
@[simp] theorem Engine.setCfgRef_cfgPan (e : Engine N) (i v : Nibble) : (e.setCfgRef i v).cfgPan = e.cfgPan := by rw [Engine.setCfgRef]
@[simp] theorem Engine.setCfgRef_ready (e : Engine N) (i v : Nibble) : (e.setCfgRef i v).ready = e.ready := by rw [Engine.setCfgRef]
@[simp] theorem Engine.setCfgRef_err (e : Engine N) (i v : Nibble) : (e.setCfgRef i v).err = e.err := by rw [Engine.setCfgRef]
@[simp] theorem Engine.setCfgRef_errCode (e : Engine N) (i v : Nibble) : (e.setCfgRef i v).errCode = e.errCode := by rw [Engine.setCfgRef]
@[simp] theorem Engine.setCfgRef_errInfo (e : Engine N) (i v : Nibble) : (e.setCfgRef i v).errInfo = e.errInfo := by rw [Engine.setCfgRef]

/-! ### setCfgPan -/

@[simp] theorem Engine.setCfgPan_rot (e : Engine N) (i v : Nibble) : (e.setCfgPan i v).rot = e.rot := by rw [Engine.setCfgPan]
@[simp] theorem Engine.setCfgPan_panO (e : Engine N) (i v : Nibble) : (e.setCfgPan i v).panO = e.panO := by rw [Engine.setCfgPan]
@[simp] theorem Engine.setCfgPan_panW (e : Engine N) (i v : Nibble) : (e.setCfgPan i v).panW = e.panW := by rw [Engine.setCfgPan]
@[simp] theorem Engine.setCfgPan_refW (e : Engine N) (i v : Nibble) : (e.setCfgPan i v).refW = e.refW := by rw [Engine.setCfgPan]
@[simp] theorem Engine.setCfgPan_ctr (e : Engine N) (i v : Nibble) : (e.setCfgPan i v).ctr = e.ctr := by rw [Engine.setCfgPan]
@[simp] theorem Engine.setCfgPan_cfgRot (e : Engine N) (i v : Nibble) : (e.setCfgPan i v).cfgRot = e.cfgRot := by rw [Engine.setCfgPan]
@[simp] theorem Engine.setCfgPan_cfgOff (e : Engine N) (i v : Nibble) : (e.setCfgPan i v).cfgOff = e.cfgOff := by rw [Engine.setCfgPan]
@[simp] theorem Engine.setCfgPan_cfgRef (e : Engine N) (i v : Nibble) : (e.setCfgPan i v).cfgRef = e.cfgRef := by rw [Engine.setCfgPan]
@[simp] theorem Engine.setCfgPan_cfgPan (e : Engine N) (i v : Nibble) : (e.setCfgPan i v).cfgPan = setCell e.cfgPan i v := by rw [Engine.setCfgPan]
@[simp] theorem Engine.setCfgPan_ready (e : Engine N) (i v : Nibble) : (e.setCfgPan i v).ready = e.ready := by rw [Engine.setCfgPan]
@[simp] theorem Engine.setCfgPan_err (e : Engine N) (i v : Nibble) : (e.setCfgPan i v).err = e.err := by rw [Engine.setCfgPan]
@[simp] theorem Engine.setCfgPan_errCode (e : Engine N) (i v : Nibble) : (e.setCfgPan i v).errCode = e.errCode := by rw [Engine.setCfgPan]
@[simp] theorem Engine.setCfgPan_errInfo (e : Engine N) (i v : Nibble) : (e.setCfgPan i v).errInfo = e.errInfo := by rw [Engine.setCfgPan]

/-! ### construct -/

@[simp] theorem Engine.construct_rot (e : Engine N) : e.construct.rot = Vector.ofFn fun k : Fin N => rotl e.cfgRot[k] e.cfgOff[k].toNat := rfl
@[simp] theorem Engine.construct_panO (e : Engine N) : e.construct.panO = e.cfgPan := rfl
@[simp] theorem Engine.construct_panW (e : Engine N) : e.construct.panW = pairswap e.cfgPan := rfl
@[simp] theorem Engine.construct_refW (e : Engine N) : e.construct.refW = pairswap e.cfgRef := rfl
@[simp] theorem Engine.construct_ctr (e : Engine N) : e.construct.ctr = 0#32 := rfl
@[simp] theorem Engine.construct_cfgRot (e : Engine N) : e.construct.cfgRot = e.cfgRot := rfl
@[simp] theorem Engine.construct_cfgOff (e : Engine N) : e.construct.cfgOff = e.cfgOff := rfl
@[simp] theorem Engine.construct_cfgRef (e : Engine N) : e.construct.cfgRef = e.cfgRef := rfl
@[simp] theorem Engine.construct_cfgPan (e : Engine N) : e.construct.cfgPan = e.cfgPan := rfl
@[simp] theorem Engine.construct_ready (e : Engine N) : e.construct.ready = true := rfl
@[simp] theorem Engine.construct_err (e : Engine N) : e.construct.err = e.err := rfl
@[simp] theorem Engine.construct_errCode (e : Engine N) : e.construct.errCode = e.errCode := rfl
@[simp] theorem Engine.construct_errInfo (e : Engine N) : e.construct.errInfo = e.errInfo := rfl

/-! ### stepRotors -/

@[simp] theorem Engine.stepRotors_rot (e : Engine N) : e.stepRotors.rot = Vector.ofFn fun k : Fin N =>
      if (e.ctr + 1#32).toNat % 16 ^ k.val = 0 then rotorRotate e.rot[k] else e.rot[k] := rfl
@[simp] theorem Engine.stepRotors_panO (e : Engine N) : e.stepRotors.panO = e.panO := rfl
@[simp] theorem Engine.stepRotors_panW (e : Engine N) : e.stepRotors.panW = e.panW := rfl
@[simp] theorem Engine.stepRotors_refW (e : Engine N) : e.stepRotors.refW = e.refW := rfl
@[simp] theorem Engine.stepRotors_ctr (e : Engine N) : e.stepRotors.ctr = e.ctr + 1#32 := rfl
@[simp] theorem Engine.stepRotors_cfgRot (e : Engine N) : e.stepRotors.cfgRot = e.cfgRot := rfl
@[simp] theorem Engine.stepRotors_cfgOff (e : Engine N) : e.stepRotors.cfgOff = e.cfgOff := rfl
@[simp] theorem Engine.stepRotors_cfgRef (e : Engine N) : e.stepRotors.cfgRef = e.cfgRef := rfl
@[simp] theorem Engine.stepRotors_cfgPan (e : Engine N) : e.stepRotors.cfgPan = e.cfgPan := rfl
@[simp] theorem Engine.stepRotors_ready (e : Engine N) : e.stepRotors.ready = e.ready := rfl
@[simp] theorem Engine.stepRotors_err (e : Engine N) : e.stepRotors.err = e.err := rfl
@[simp] theorem Engine.stepRotors_errCode (e : Engine N) : e.stepRotors.errCode = e.errCode := rfl
@[simp] theorem Engine.stepRotors_errInfo (e : Engine N) : e.stepRotors.errInfo = e.errInfo := rfl

/-! ### recordRefusal -/

@[simp] theorem Engine.recordRefusal_rot (e : Engine N) (c : RefuseCode) (i : BitVec 3) : (e.recordRefusal c i).rot = e.rot := by unfold Engine.recordRefusal; split <;> rfl
@[simp] theorem Engine.recordRefusal_panO (e : Engine N) (c : RefuseCode) (i : BitVec 3) : (e.recordRefusal c i).panO = e.panO := by unfold Engine.recordRefusal; split <;> rfl
@[simp] theorem Engine.recordRefusal_panW (e : Engine N) (c : RefuseCode) (i : BitVec 3) : (e.recordRefusal c i).panW = e.panW := by unfold Engine.recordRefusal; split <;> rfl
@[simp] theorem Engine.recordRefusal_refW (e : Engine N) (c : RefuseCode) (i : BitVec 3) : (e.recordRefusal c i).refW = e.refW := by unfold Engine.recordRefusal; split <;> rfl
@[simp] theorem Engine.recordRefusal_ctr (e : Engine N) (c : RefuseCode) (i : BitVec 3) : (e.recordRefusal c i).ctr = e.ctr := by unfold Engine.recordRefusal; split <;> rfl
@[simp] theorem Engine.recordRefusal_cfgRot (e : Engine N) (c : RefuseCode) (i : BitVec 3) : (e.recordRefusal c i).cfgRot = e.cfgRot := by unfold Engine.recordRefusal; split <;> rfl
@[simp] theorem Engine.recordRefusal_cfgOff (e : Engine N) (c : RefuseCode) (i : BitVec 3) : (e.recordRefusal c i).cfgOff = e.cfgOff := by unfold Engine.recordRefusal; split <;> rfl
@[simp] theorem Engine.recordRefusal_cfgRef (e : Engine N) (c : RefuseCode) (i : BitVec 3) : (e.recordRefusal c i).cfgRef = e.cfgRef := by unfold Engine.recordRefusal; split <;> rfl
@[simp] theorem Engine.recordRefusal_cfgPan (e : Engine N) (c : RefuseCode) (i : BitVec 3) : (e.recordRefusal c i).cfgPan = e.cfgPan := by unfold Engine.recordRefusal; split <;> rfl
@[simp] theorem Engine.recordRefusal_ready (e : Engine N) (c : RefuseCode) (i : BitVec 3) : (e.recordRefusal c i).ready = e.ready := by unfold Engine.recordRefusal; split <;> rfl
@[simp] theorem Engine.recordRefusal_err (e : Engine N) (c : RefuseCode) (i : BitVec 3) : (e.recordRefusal c i).err = true := by
  unfold Engine.recordRefusal; split <;> simp_all
@[simp] theorem Engine.recordRefusal_errCode (e : Engine N) (c : RefuseCode) (i : BitVec 3) :
    (e.recordRefusal c i).errCode = if e.err then e.errCode else c.bits := by
  unfold Engine.recordRefusal; split <;> rfl
@[simp] theorem Engine.recordRefusal_errInfo (e : Engine N) (c : RefuseCode) (i : BitVec 3) :
    (e.recordRefusal c i).errInfo = if e.err then e.errInfo else i := by
  unfold Engine.recordRefusal; split <;> rfl

/-! ### The whole state -/

@[simp] theorem State.withFetchWord_engine (s : State) (n w : Nat) : (s.withFetchWord n w).engine = s.engine := rfl
@[simp] theorem State.withFetchWord_pending (s : State) (n w : Nat) :
    (s.withFetchWord n w).pending = .command (tableWord n w) :: s.pending := rfl
@[simp] theorem State.withFetchWord_responses (s : State) (n w : Nat) : (s.withFetchWord n w).responses = s.responses := rfl
@[simp] theorem resetEngine_engine (s : State) : (resetEngine s).engine = Engine.reset Config.nRotors := rfl
@[simp] theorem resetEngine_pending (s : State) : (resetEngine s).pending = s.pending := rfl
@[simp] theorem resetEngine_responses (s : State) : (resetEngine s).responses = s.responses := rfl

end Sys2Proof.Machine
end

