-- ==== Sys2Proof/Laws/Table.lean ====
section
/-! SUPPORT. What one cell of a table reads after each table operation, and what the look-ups over the
alphabet mean. -/

namespace Sys2Proof.Machine

@[simp] theorem cell_tableOf (f : Nibble → Nibble) (c : Nibble) : cell (tableOf f) c = f c := by
  simp [cell, tableOf]

/-- Two tables with the same cells are the same table. -/
theorem table_ext {T U : Table} (h : ∀ c, cell T c = cell U c) : T = U := by
  apply Vector.ext
  intro i hi
  have := h (BitVec.ofNat 4 i)
  have hm : i % 16 = i := Nat.mod_eq_of_lt hi
  simpa [cell, hm] using this

@[simp] theorem cell_zeroTable (c : Nibble) : cell zeroTable c = 0#4 := by simp [cell, zeroTable]

theorem cell_setCell (T : Table) (i v j : Nibble) : cell (setCell T i v) j = if j = i then v else cell T j := by
  simp [setCell]

@[simp] theorem cell_setCell_self (T : Table) (i v : Nibble) : cell (setCell T i v) i = v := by simp [setCell]

theorem cell_setCell_of_ne (T : Table) {i j : Nibble} (v : Nibble) (h : j ≠ i) :
    cell (setCell T i v) j = cell T j := by simp [setCell, h]

@[simp] theorem cell_pairswap (T : Table) (i : Nibble) : cell (pairswap T) i = cell T (i ^^^ 1#4) := by simp [pairswap]

@[simp] theorem cell_rotl (T : Table) (p : Nat) (i : Nibble) :
    cell (rotl T p) i = cell T (i + BitVec.ofNat 4 p) := by simp [rotl]

/-- The alphabet holds every symbol (00_scope.md R8). -/
@[simp] theorem mem_alphabet (c : Nibble) : c ∈ Config.alphabet := by revert c; decide

/-- The reflector contract, read off its check (40_permutation_lut.md R77). -/
theorem isReflector_forall (R : Table) :
    isReflector R = true ↔ ∀ x, cell R (cell R x) = x ∧ cell R x ≠ x := by
  simp [isReflector, List.all_eq_true]

/-- A look-up that finds something finds a cell that holds the symbol. -/
theorem cell_of_pos {T : Table} {v i : Nibble} (h : pos T v = some i) : cell T i = v := by
  simpa using List.find?_some h

/-- A rotor look-up of a symbol that the wiring holds gives its position; the free value is not used. -/
theorem rotorForward_of_pos {W : Table} {c i : Nibble} (h : pos W c = some i) : rotorForward W c = i := by
  simp [rotorForward, applyForward, h]

end Sys2Proof.Machine
end

