-- ==== Sys2Proof/Laws/Ops.lean ====
section
/-! SUPPORT. One lemma per shared operation, which says once everything it can do. -/

namespace Sys2Proof.Machine

variable {N : Nat}

/-- Every command at the port answers a next state: the engine operation's engine, and its one response. -/
theorem transact_eq (f : Engine Config.nRotors → Engine Config.nRotors × RspWord) (s : State) :
    transact f s = .next (s.answered (f s.engine).1 (f s.engine).2) := rfl

/-- A next state of a transaction is the one it answers. -/
theorem transact_next {f : Engine Config.nRotors → Engine Config.nRotors × RspWord} {s t : State}
    (h : transact f s = .next t) : t = s.answered (f s.engine).1 (f s.engine).2 := by
  simpa [transact_eq, eq_comm] using h

@[simp] theorem Engine.respond_engine (d : Byte) (e : Engine N) : (e.respond d).1 = e := rfl
@[simp] theorem Engine.respond_response (d : Byte) (e : Engine N) : (e.respond d).2 = dataResponse d := rfl
@[simp] theorem Engine.refuse_engine (c : RefuseCode) (i : BitVec 3) (e : Engine N) :
    (e.refuse c i).1 = e.recordRefusal c i := rfl
@[simp] theorem Engine.refuse_response (c : RefuseCode) (i : BitVec 3) (e : Engine N) :
    (e.refuse c i).2 = refuseResponse c i := rfl

theorem Engine.whenReady_of_ready (f : Engine N → Engine N × RspWord) {e : Engine N} (h : e.ready = true) :
    Engine.whenReady f e = f e := by simp [Engine.whenReady, h]

theorem Engine.whenReady_of_not_ready (f : Engine N → Engine N × RspWord) {e : Engine N} (h : e.ready = false) :
    Engine.whenReady f e = e.refuse .notReady 0#3 := by simp [Engine.whenReady, h]

/-- The `READY` gate: the operation, or the refusal. -/
theorem Engine.whenReady_cases (f : Engine N → Engine N × RspWord) (e : Engine N) :
    (e.ready = true ∧ Engine.whenReady f e = f e) ∨
    (e.ready = false ∧ Engine.whenReady f e = e.refuse .notReady 0#3) := by
  cases h : e.ready <;> simp [Engine.whenReady, h]

theorem rotorIndex_of_lt {k : BitVec 3} (h : k.toNat < N) : rotorIndex N k = some ⟨k.toNat, h⟩ := by
  simp [rotorIndex, h]

theorem rotorIndex_of_le {k : BitVec 3} (h : N ≤ k.toNat) : rotorIndex N k = none := by
  simp [rotorIndex, Nat.not_lt.2 h]

/-- The rotor number check: the operation on the rotor named, or the refusal. -/
theorem Engine.withRotor_cases (k : BitVec 3) (f : Fin N → Engine N → Engine N × RspWord) (e : Engine N) :
    (∃ h : k.toNat < N, Engine.withRotor k f e = f ⟨k.toNat, h⟩ e) ∨
    (N ≤ k.toNat ∧ Engine.withRotor k f e = e.refuse .illegalCmd 0#3) := by
  by_cases h : k.toNat < N
  · exact .inl ⟨h, by simp [Engine.withRotor, rotorIndex_of_lt h]⟩
  · exact .inr ⟨Nat.not_lt.1 h, by simp [Engine.withRotor, rotorIndex_of_le (Nat.not_lt.1 h)]⟩

/-- LDROT writes its cell, or is refused for its rotor number. -/
theorem Engine.ldrot_cases (k : BitVec 3) (i v : Nibble) (e : Engine N) :
    (∃ h : k.toNat < N, e.ldrot k i v = (e.setCfgRot ⟨k.toNat, h⟩ i v, dataResponse 0#8)) ∨
    (N ≤ k.toNat ∧ e.ldrot k i v = (e.recordRefusal .illegalCmd 0#3, refuseResponse .illegalCmd 0#3)) :=
  Engine.withRotor_cases k _ e

/-- LDOFF writes its offset, or is refused for its rotor number. -/
theorem Engine.ldoff_cases (k : BitVec 3) (v : Nibble) (e : Engine N) :
    (∃ h : k.toNat < N, e.ldoff k v = (e.setCfgOff ⟨k.toNat, h⟩ v, dataResponse 0#8)) ∨
    (N ≤ k.toNat ∧ e.ldoff k v = (e.recordRefusal .illegalCmd 0#3, refuseResponse .illegalCmd 0#3)) :=
  Engine.withRotor_cases k _ e

/-- ENCB answers the byte, or is refused. -/
theorem Engine.encb_cases (d : Byte) (e : Engine N) :
    (e.ready = true ∧ e.encb d = (e, dataResponse (e.encipherByte d))) ∨
    (e.ready = false ∧ e.encb d = (e.recordRefusal .notReady 0#3, refuseResponse .notReady 0#3)) :=
  Engine.whenReady_cases _ e

/-- STEP steps, or is refused. -/
theorem Engine.stepOnce_cases (e : Engine N) :
    (e.ready = true ∧ e.stepOnce = (e.stepRotors, dataResponse 0#8)) ∨
    (e.ready = false ∧ e.stepOnce = (e.recordRefusal .notReady 0#3, refuseResponse .notReady 0#3)) :=
  Engine.whenReady_cases _ e

/-- ENC answers the byte and steps, or is refused. -/
theorem Engine.enc_cases (d : Byte) (e : Engine N) :
    (e.ready = true ∧ e.enc d = (e.stepRotors, dataResponse (e.encipherByte d))) ∨
    (e.ready = false ∧ e.enc d = (e.recordRefusal .notReady 0#3, refuseResponse .notReady 0#3)) :=
  Engine.whenReady_cases _ e

/-- RDROT answers its cell, or is refused for its rotor number, or because no machine exists. -/
theorem Engine.rdrot_cases (k : BitVec 3) (i : Nibble) (e : Engine N) :
    (∃ h : k.toNat < N, e.ready = true ∧ e.rdrot k i = (e, dataResponse (e.rotByte ⟨k.toNat, h⟩ i))) ∨
    (k.toNat < N ∧ e.ready = false ∧ e.rdrot k i = (e.recordRefusal .notReady 0#3, refuseResponse .notReady 0#3)) ∨
    (N ≤ k.toNat ∧ e.rdrot k i = (e.recordRefusal .illegalCmd 0#3, refuseResponse .illegalCmd 0#3)) := by
  rcases Engine.withRotor_cases k (fun k => Engine.whenReady fun e => e.respond (e.rotByte k i)) e with ⟨h, hw⟩ | ⟨h, hw⟩
  · rcases Engine.whenReady_cases (fun e => e.respond (e.rotByte ⟨k.toNat, h⟩ i)) e with ⟨r, hr⟩ | ⟨r, hr⟩
    · exact .inl ⟨h, r, hw.trans hr⟩
    · exact .inr (.inl ⟨h, r, hw.trans hr⟩)
  · exact .inr (.inr ⟨h, hw⟩)

/-- INIT either fails at a check, or every check passes and it constructs. -/
theorem Engine.init_cases (e : Engine N) :
    (∃ c i, e.initFailure = some (c, i) ∧
      e.init = ({ e with ready := false }.recordRefusal c i, refuseResponse c i)) ∨
    (e.initFailure = none ∧ e.init = (e.construct, dataResponse 0#8)) := by
  unfold Engine.init
  cases h : e.initFailure with
  | none => exact .inr ⟨rfl, rfl⟩
  | some p => exact .inl ⟨p.1, p.2, rfl, rfl⟩

/-- The least rotor with a bad table, if the search finds none, is no rotor. -/
theorem Engine.badRotor_none {e : Engine N} : e.badRotor = none ↔ ∀ k : Fin N, isPerm e.cfgRot[k] = true := by
  simp [Engine.badRotor, List.find?_eq_none]

/-- No check fails exactly when the configuration is legal. -/
theorem Engine.initFailure_none {e : Engine N} : e.initFailure = none ↔ e.ConfigOk := by
  unfold Engine.initFailure Engine.ConfigOk
  rw [← Engine.badRotor_none]
  cases hb : e.badRotor with
  | some k => simp
  | none =>
    cases h1 : isPerm e.cfgRef <;> cases h2 : isReflector (pairswap e.cfgRef) <;>
      cases h3 : isPerm e.cfgPan <;> simp

/-- Every arm of `exec` is the transaction of the engine operation that `Engine.command` names. -/
theorem exec_eq_transact (i : Instr) (s : State) : exec i s = transact (Engine.command i) s := by
  cases i <;> rfl

/-- Everything a step can do: idle, a reset, or one accepted word. -/
theorem step_cases (s : State) :
    (s.pending = [] ∧ step s = .next s) ∨
    (∃ rest, s.pending = .reset :: rest ∧ step s = .next (resetEngine { s with pending := rest })) ∨
    (∃ w rest, s.pending = .command w :: rest ∧ step s = transact (Engine.accept w) { s with pending := rest }) := by
  rcases s with ⟨e, p, r⟩
  cases p with
  | nil => exact .inl ⟨rfl, rfl⟩
  | cons a rest =>
    cases a with
    | reset => exact .inr (.inl ⟨rest, rfl, rfl⟩)
    | command w =>
      refine .inr (.inr ⟨w, rest, rfl, ?_⟩)
      cases h : decode w with
      | command i => simp [step, h, exec_eq_transact, transact, Engine.accept]
      | illegal y => simp [step, h, execIllegal, transact, Engine.accept]

end Sys2Proof.Machine
end

