-- ==== Sys2Proof/Laws/PerInstr.lean ====
section
/-! SUPPORT. Statements about every command as syntax, one lemma per constructor: the `OP` field of a
command's word is the command's opcode (30_encoding.md R47, R52). -/

namespace Sys2Proof.Laws.EncodedOpcode

def Statement (i : Instr) : Prop := fieldOp (encode i) = i.opcode

theorem every (i : Instr) : Statement i := by
  cases i <;> ext j hj <;> simp only [fieldOp, encode, BitVec.getElem_extractLsb', BitVec.getLsbD_append] <;>
    (obtain rfl | rfl | rfl | rfl : j = 0 ∨ j = 1 ∨ j = 2 ∨ j = 3 := by omega) <;> simp [Instr.opcode]

theorem nop : Statement .nop := every _
theorem ldrot (k : BitVec 3) (i v : Nibble) : Statement (.ldrot k i v) := every _
theorem ldoff (k : BitVec 3) (v : Nibble) : Statement (.ldoff k v) := every _
theorem ldref (i v : Nibble) : Statement (.ldref i v) := every _
theorem ldpan (i v : Nibble) : Statement (.ldpan i v) := every _
theorem init : Statement .init := every _
theorem encb (d : Byte) : Statement (.encb d) := every _
theorem step : Statement .step := every _
theorem enc (d : Byte) : Statement (.enc d) := every _
theorem rdst : Statement .rdst := every _
theorem rdctr (b : BitVec 2) : Statement (.rdctr b) := every _
theorem rdrot (k : BitVec 3) (i : Nibble) : Statement (.rdrot k i) := every _

end Sys2Proof.Laws.EncodedOpcode
end

