-- ==== Sys2Proof/Tests/Slice0.lean ====
section
/-! SUPPORT. Tests on small states, their expected values from 95_test_vectors.md and the rules' own examples,
and a witness for the hypotheses of every statement that has some. -/

namespace Sys2Proof.Tests

open Sys2Proof.Machine

/-! ## The reference configuration (95_test_vectors.md section 1) -/

def identity : Table := #v[0, 1, 2, 3, 4, 5, 6, 7, 8, 9, 10, 11, 12, 13, 14, 15]
def reversed : Table := #v[15, 14, 13, 12, 11, 10, 9, 8, 7, 6, 5, 4, 3, 2, 1, 0]
/-- `R2` of section 4. -/
def thirdTable : Table := #v[5, 2, 8, 4, 1, 6, 9, 11, 14, 13, 12, 10, 3, 7, 0, 15]
/-- `W2` of section 4. -/
def thirdWiring : Table := #v[2, 8, 4, 1, 6, 9, 11, 14, 13, 12, 10, 3, 7, 0, 15, 5]
def panelTable : Table := #v[3, 5, 7, 2, 8, 9, 11, 1, 0, 6, 12, 15, 13, 4, 14, 10]

/-- The reference configuration loaded after reset, no INIT yet. -/
def loaded : Engine 3 :=
  { Engine.reset 3 with
    cfgRot := #v[identity, reversed, thirdTable], cfgOff := #v[1, 1, 1], cfgRef := identity, cfgPan := panelTable }

/-- The state that section 1 gives after INIT, written out from its table. -/
def machine : Engine 3 :=
  { loaded with
    rot := #v[#v[1, 2, 3, 4, 5, 6, 7, 8, 9, 10, 11, 12, 13, 14, 15, 0],
      #v[14, 13, 12, 11, 10, 9, 8, 7, 6, 5, 4, 3, 2, 1, 0, 15], thirdWiring]
    panO := panelTable
    panW := #v[5, 3, 2, 7, 9, 8, 1, 11, 6, 0, 15, 12, 4, 13, 10, 14]
    refW := #v[1, 0, 3, 2, 5, 4, 7, 6, 9, 8, 11, 10, 13, 12, 15, 14]
    ready := true }

/-- An engine, with nothing presented and nothing answered. -/
def idleState (e : Engine 3) : State := ⟨e, [], []⟩

/-- The state that a step or a command answers. -/
def stateOf (r : Result) : Option State :=
  match r with
  | .next t => some t
  | .fault _ => none
  | .refused _ => none

/-- The engine after a command. -/
def engineOf (r : Result) : Option (Engine 3) := (stateOf r).map fun t => t.engine

/-- The response words after a command. -/
def answerOf (r : Result) : Option (List RspWord) := (stateOf r).map fun t => t.responses

/-- 00_scope.md R4: 3 rotors by default, within the legal range 3 to 8. -/
theorem test_rotor_count_legal : Config.legalRotorCount Config.nRotors = true := by decide

/-! ## Decoding: words written out from the patterns of 30_encoding.md R52, and section 7 -/

theorem test_decode_nop : decode 0b0000_0000_0000_0000 = .command .nop := by decide
theorem test_decode_ldrot : decode 0b0001_0010_1100_0011 = .command (.ldrot 2 12 3) := by decide
theorem test_decode_ldrot_seven : decode 0x17FF = .command (.ldrot 7 15 15) := by decide
theorem test_decode_ldoff : decode 0b0010_0001_0000_1111 = .command (.ldoff 1 15) := by decide
theorem test_decode_ldref : decode 0b0011_0000_1010_0101 = .command (.ldref 10 5) := by decide
theorem test_decode_ldpan : decode 0b0100_0000_1111_1010 = .command (.ldpan 15 10) := by decide
theorem test_decode_init : decode 0b0101_0000_0000_0000 = .command .init := by decide
theorem test_decode_encb : decode 0b0110_0000_1010_0101 = .command (.encb 0xA5) := by decide
theorem test_decode_step : decode 0b0111_0000_0000_0000 = .command .step := by decide
theorem test_decode_enc : decode 0b1000_0000_0100_1000 = .command (.enc 0x48) := by decide
theorem test_decode_rdst : decode 0b1001_0000_0000_0000 = .command .rdst := by decide
theorem test_decode_rdctr : decode 0b1010_0000_0000_0010 = .command (.rdctr 2) := by decide
theorem test_decode_rdrot : decode 0b1011_0010_1111_0000 = .command (.rdrot 2 15) := by decide

/-- Section 6.1: the illegal words (the three with k >= 3 are commands to the decoder, and refused by exec). -/
theorem test_illegal_words :
    [0xF000, 0xC000, 0xD123, 0xE000].map decode = List.replicate 4 (.illegal .reservedOpcode) ∧
    [0x0001, 0x1800, 0x2010, 0x3100, 0x410E, 0x5001, 0x6100, 0x7800, 0x8100, 0x9001, 0xA004, 0xB001].map decode =
      List.replicate 12 (.illegal .reservedBit) := by decide

theorem test_table_word : decodeTableWord 16 0xB2F0 = some (.rdrot 2 15) ∧ decodeTableWord 16 0xB2F1 = none := by decide

/-! ## Well-formedness: each check refuses an ill-formed command -/

theorem test_ill_formed_ldrot : (Instr.ldrot 3 0 0).wellFormed = false ∧ (Instr.ldrot 2 15 15).wellFormed = true := by decide
theorem test_ill_formed_ldoff : (Instr.ldoff 7 0).wellFormed = false ∧ (Instr.ldoff 2 0).wellFormed = true := by decide
theorem test_ill_formed_rdrot : (Instr.rdrot 5 0).wellFormed = false ∧ (Instr.rdrot 0 15).wellFormed = true := by decide

/-! ## The primitives (section 4) -/

theorem test_is_perm : isPerm thirdTable = true ∧ isPerm zeroTable = false ∧
    isPerm #v[0, 1, 2, 3, 4, 5, 6, 7, 8, 9, 10, 11, 12, 13, 14, 14] = false := by decide
theorem test_pos : pos thirdWiring 5 = some 15 ∧ pos thirdWiring 0 = some 13 ∧
    pos zeroTable 0 = some 0 ∧ pos zeroTable 1 = none := by decide
theorem test_pairswap_panel : pairswap panelTable = #v[5, 3, 2, 7, 9, 8, 1, 11, 6, 0, 15, 12, 4, 13, 10, 14] := by decide
theorem test_rotl_fifteen : rotl thirdTable 15 = #v[15, 5, 2, 8, 4, 1, 6, 9, 11, 14, 13, 12, 10, 3, 7, 0] := by decide
theorem test_rotate : rotorRotate thirdWiring = #v[8, 4, 1, 6, 9, 11, 14, 13, 12, 10, 3, 7, 0, 15, 5, 2] := by decide
theorem test_rotor_forward : Config.alphabet.map (rotorForward thirdWiring) =
    [13, 3, 0, 11, 2, 15, 4, 12, 1, 5, 10, 6, 9, 8, 7, 14] := by decide
theorem test_commutate : Config.alphabet.map (commutate panelTable (pairswap panelTable)) =
    [6, 11, 7, 5, 13, 3, 0, 2, 9, 8, 14, 1, 15, 4, 10, 12] := by decide
/-- Section 4.6: the fallback branch, and the least index on a table with a symbol twice. -/
theorem test_commutate_absent :
    let O : Table := #v[5, 5, 7, 2, 8, 9, 11, 1, 0, 6, 12, 15, 13, 4, 14, 10]
    commutate O (pairswap O) 3 = 3 ∧ commutate O (pairswap O) 5 = 5 := by decide
theorem test_reflector_contract : isReflector (pairswap identity) = true ∧ isReflector (pairswap thirdTable) = false ∧
    isReflector (pairswap #v[3, 2, 1, 0, 7, 6, 5, 4, 11, 10, 9, 8, 15, 14, 13, 12]) = true ∧
    isReflector (pairswap #v[1, 0, 2, 3, 4, 5, 6, 7, 8, 9, 10, 11, 12, 13, 14, 15]) = false := by decide
theorem test_nibble_map : Config.alphabet.map machine.encipherNibble =
    [8, 10, 4, 15, 2, 7, 14, 5, 0, 12, 1, 13, 9, 11, 6, 3] := by decide

/-! ## One command each -/

theorem test_nop : answerOf (exec .nop (idleState machine)) = some [0x0000] := by decide
theorem test_ldrot : engineOf (exec (.ldrot 2 0 5) (idleState (Engine.reset 3))) =
    some { Engine.reset 3 with cfgRot := #v[zeroTable, zeroTable, #v[5, 0, 0, 0, 0, 0, 0, 0, 0, 0, 0, 0, 0, 0, 0, 0]] } := by decide
theorem test_ldrot_out_of_range : answerOf (exec (.ldrot 3 0 0) (idleState machine)) = some [0x9000] ∧
    engineOf (exec (.ldrot 3 0 0) (idleState machine)) = some { machine with err := true, errCode := 1 } := by decide
theorem test_ldoff : engineOf (exec (.ldoff 1 9) (idleState machine)) = some { machine with cfgOff := #v[1, 9, 1] } := by decide
theorem test_ldref : engineOf (exec (.ldref 15 3) (idleState (Engine.reset 3))) =
    some { Engine.reset 3 with cfgRef := #v[0, 0, 0, 0, 0, 0, 0, 0, 0, 0, 0, 0, 0, 0, 0, 3] } := by decide
theorem test_ldpan : engineOf (exec (.ldpan 0 3) (idleState (Engine.reset 3))) =
    some { Engine.reset 3 with cfgPan := #v[3, 0, 0, 0, 0, 0, 0, 0, 0, 0, 0, 0, 0, 0, 0, 0] } := by decide
theorem test_init_constructs : engineOf (exec .init (idleState loaded)) = some machine ∧
    answerOf (exec .init (idleState loaded)) = some [0x0000] := by decide
/-- R89's example: on a fresh engine the response is 0xB000 and STATUS becomes 0x0E. -/
theorem test_init_refused : answerOf (exec .init (idleState (Engine.reset 3))) = some [0xB000] ∧
    (engineOf (exec .init (idleState (Engine.reset 3)))).map Engine.status = some 0x0E := by decide
theorem test_encb : answerOf (exec (.encb 0x48) (idleState machine)) = some [0x0020] ∧
    answerOf (exec (.encb 0x0F) (idleState machine)) = some [0x0083] := by decide
/-- R110's example: from CTR = 15 a step rotates rotors 0 and 1 and leaves rotor 2. -/
theorem test_step_carry : (engineOf (exec .step (idleState { machine with ctr := 15 }))).map (fun e => (e.ctr, e.rot)) =
    some (16, #v[#v[2, 3, 4, 5, 6, 7, 8, 9, 10, 11, 12, 13, 14, 15, 0, 1],
      #v[13, 12, 11, 10, 9, 8, 7, 6, 5, 4, 3, 2, 1, 0, 15, 14], thirdWiring]) := by decide
theorem test_step_wrap : (engineOf (exec .step (idleState { machine with ctr := 0xFFFFFFFF }))).map
    (fun e => (e.ctr, cell e.rot[0] 0, cell e.rot[1] 0, cell e.rot[2] 0)) = some (0, 2, 13, 8) := by decide
/-- Section 2, n = 1: the state after one step enciphers 0x65 to 0x8D and steps. -/
theorem test_enc : answerOf (exec (.enc 0x65) (idleState machine.stepRotors)) = some [0x008D] ∧
    (engineOf (exec (.enc 0x65) (idleState machine.stepRotors))).map (fun e => e.ctr) = some 2 := by decide
theorem test_enc_not_ready : answerOf (exec (.enc 0x48) (idleState loaded)) = some [0xA000] ∧
    (engineOf (exec (.enc 0x48) (idleState loaded))).map Engine.status = some 0x0A := by decide
theorem test_rdst : answerOf (exec .rdst (idleState { machine with err := true, errCode := 3, errInfo := 2 })) =
    some [0x004F] := by decide
theorem test_rdctr : answerOf (exec (.rdctr 2) (idleState { machine with ctr := 0x12345678 })) = some [0x0034] := by decide
theorem test_rdrot : answerOf (exec (.rdrot 2 15) (idleState machine)) = some [0x0005] := by decide
/-- R137's example: ILLEGAL_CMD before NOT_READY. -/
theorem test_rdrot_illegal_first : answerOf (exec (.rdrot 5 0) (idleState (Engine.reset 3))) = some [0x9000] := by decide
/-- Section 6.4: the first refusal stays recorded. -/
theorem test_sticky : (engineOf (exec .init (idleState { Engine.reset 3 with err := true, errCode := 2 }))).map Engine.status =
    some 0x0A := by decide

/-- A step takes the word at the port; an undecodable one is answered too. -/
theorem test_step_fetches : stateOf (step ((idleState machine).withFetchWord 16 0xA000)) = some ⟨machine, [], [0x0000]⟩ ∧
    stateOf (step ((idleState machine).withFetchWord 16 0xF000)) =
      some ⟨{ machine with err := true, errCode := 1 }, [], [0x9000]⟩ := by decide

/-! ## The assembler (30_encoding.md R57, R58) -/

theorem test_assemble_text :
    assembleText "LDROT 2, 0, 5 ; one cell\n  STEPN 2\n.word 0xF000\nENCS \"Hi\"".toList =
      some [0x1205, 0x7000, 0x7000, 0xF000, 0x8048, 0x8069] := by decide
theorem test_assembler_rejects : assembleLine (.ldrot 8 0 0) = none ∧ assembleLine (.enc 256) = none := by decide

/-! ## Witnesses: concrete states and operands that meet the hypotheses of each statement -/

/-- An engine with an error recorded. -/
def withError : Engine 3 := { machine with err := true, errCode := 6 }

theorem witness_DecodedWordIsTheEncoding : decode 0x1205 = .command (.ldrot 2 0 5) := by decide
theorem witness_StepRunsTheDecodedCommand :
    ((idleState machine).withFetchWord 16 0x8048).pending = .command 0x8048 :: [] ∧ decode 0x8048 = .command (.enc 0x48) := by decide
theorem witness_UndecodedWordIsRefused :
    ((idleState machine).withFetchWord 16 0xF000).pending = .command 0xF000 :: [] ∧ ∀ i, encode i ≠ 0xF000 := by
  refine ⟨by decide, fun i h => ?_⟩
  have hop : fieldOp (encode i) = i.opcode := by
    cases i
    · exact Laws.EncodedOpcode.nop
    · exact Laws.EncodedOpcode.ldrot _ _ _
    · exact Laws.EncodedOpcode.ldoff _ _
    · exact Laws.EncodedOpcode.ldref _ _
    · exact Laws.EncodedOpcode.ldpan _ _
    · exact Laws.EncodedOpcode.init
    · exact Laws.EncodedOpcode.encb _
    · exact Laws.EncodedOpcode.step
    · exact Laws.EncodedOpcode.enc _
    · exact Laws.EncodedOpcode.rdst
    · exact Laws.EncodedOpcode.rdctr _
    · exact Laws.EncodedOpcode.rdrot _ _
  rw [h] at hop
  cases i <;> exact absurd hop (by simp [fieldOp, Instr.opcode])
theorem witness_EveryStepCompletes : (⟨machine, [], []⟩ : State).pending = [] ∧
    (⟨machine, [.reset], []⟩ : State).pending = .reset :: [] ∧
    (⟨machine, [.command 0, .reset], []⟩ : State).pending = .command 0 :: [.reset] := by decide
theorem witness_QueuedCommandsRunInOrder :
    (⟨machine, [.command 0x8048, .command 0xF000, .reset], []⟩ : State).pending =
      ([0x8048, 0xF000] : List CmdWord).map HostEvent.command ++ [.reset] := by simp
theorem witness_HostResetGivesTheResetValues :
    (⟨withError, [.reset, .command 0x5000], [0x0020]⟩ : State).pending = .reset :: [.command 0x5000] := by decide
/-- A ready engine with an error recorded, a byte to encipher at the port, and one response given. -/
def busy : State := ⟨withError, [.command 0x8048], [0xE000]⟩
theorem busy_engine_inv : withError.Inv := by decide
theorem busy_responses_ok : ∀ r ∈ busy.responses, ResponseOk r := by
  intro r hr
  obtain rfl : r = 0xE000 := by simpa [busy] using hr
  decide
theorem witness_EveryStepKeepsTheInvariant : busy.Inv ∧ (stateOf (step busy)).map State.responses = some [0xE000, 0x0020] :=
  ⟨⟨busy_engine_inv, busy_responses_ok⟩, by decide⟩
theorem witness_RefusalRecordsOnlyTheFirst : machine.err = false ∧ withError.err = true := by decide
theorem witness_NoCommandChangesARecordedError : (idleState withError).engine.err = true := by decide
theorem witness_FirstRefusalIsTheOneRecorded : (idleState machine).engine.err = false := by decide
theorem witness_NotReadyCommandsAreRefused : (idleState loaded).engine.ready = false ∧
    ((∃ d, Instr.encb 0xFF = .encb d) ∧ (∃ d, Instr.enc 0 = .enc d) ∧
      ∃ k j, Instr.rdrot 2 15 = .rdrot k j ∧ k.toNat < Config.nRotors) :=
  ⟨by decide, ⟨_, rfl⟩, ⟨_, rfl⟩, _, _, rfl, by decide⟩
theorem witness_RotorNumberOutOfRangeIsRefused : Config.nRotors ≤ (3 : BitVec 3).toNat ∧ Config.nRotors ≤ (7 : BitVec 3).toNat ∧
    (∃ j v, Instr.ldrot 3 15 15 = .ldrot 3 j v) ∧ (∃ v, Instr.ldoff 7 0 = .ldoff 7 v) ∧ ∃ j, Instr.rdrot 3 0 = .rdrot 3 j :=
  ⟨by decide, by decide, ⟨_, _, rfl⟩, ⟨_, rfl⟩, _, rfl⟩
/-- Rotors 0 and 1 are permutations and rotor 2 is not. -/
def badThird : Engine 3 := { loaded with cfgRot := #v[identity, reversed, zeroTable] }
/-- Each check of INIT in turn is the first to fail (section 6.3). -/
theorem witness_InitReportsTheFirstFailure :
    (isPerm badThird.cfgRot[(2 : Fin 3)] = false ∧ ∀ j : Fin 3, j < 2 → isPerm badThird.cfgRot[j] = true) ∧
    isPerm (Engine.reset 3).cfgRot[(0 : Fin 3)] = false ∧
    (∀ k : Fin 3, isPerm loaded.cfgRot[k] = true) ∧
    isPerm zeroTable = false ∧
    (isPerm thirdTable = true ∧ isReflector (pairswap thirdTable) = false) ∧
    (isPerm identity = true ∧ isReflector (pairswap identity) = true ∧ isPerm (setCell panelTable 1 3) = false) := by decide
theorem witness_LdrotWritesOneCell : (0 : BitVec 3).toNat = (0 : Fin Config.nRotors).val ∧
    (2 : BitVec 3).toNat = (⟨2, by decide⟩ : Fin Config.nRotors).val ∧ (14 : Nibble) ≠ 15 ∧
    (⟨1, by decide⟩ : Fin Config.nRotors) ≠ ⟨2, by decide⟩ := by decide
theorem witness_LdoffWritesOneOffset : (2 : BitVec 3).toNat = (⟨2, by decide⟩ : Fin Config.nRotors).val ∧
    (⟨0, by decide⟩ : Fin Config.nRotors) ≠ ⟨2, by decide⟩ := by decide
theorem witness_LdrefAndLdpanWriteOneCell : (0 : Nibble) ≠ 15 := by decide
theorem witness_InitConstructsTheMachine : (idleState loaded).engine.ConfigOk := by decide
theorem witness_SuccessfulInitGivesLegalTables : (loaded.init).1.ready = true := by decide
theorem witness_InitForgetsThePast : loaded.SameConfig withError.stepRotors ∧ (loaded.init).1.ready = true := by decide
/-- For every element a command and a state where it does change. -/
theorem witness_EachElementHasItsWriters :
    (∃ t, exec .init (idleState loaded) = .next t ∧ t.engine.panO ≠ loaded.panO ∧ t.engine.panW ≠ loaded.panW ∧
      t.engine.refW ≠ loaded.refW ∧ t.engine.rot ≠ loaded.rot) ∧
    (∃ t, exec .step (idleState machine) = .next t ∧ t.engine.rot ≠ machine.rot ∧ t.engine.ctr ≠ machine.ctr) ∧
    (∃ t, exec (.ldrot 2 0 0) (idleState machine) = .next t ∧ t.engine.cfgRot ≠ machine.cfgRot) ∧
    (∃ t, exec (.ldoff 2 0) (idleState machine) = .next t ∧ t.engine.cfgOff ≠ machine.cfgOff) ∧
    (∃ t, exec (.ldref 15 0) (idleState machine) = .next t ∧ t.engine.cfgRef ≠ machine.cfgRef) ∧
    (∃ t, exec (.ldpan 0 0) (idleState machine) = .next t ∧ t.engine.cfgPan ≠ machine.cfgPan) :=
  ⟨⟨_, rfl, by decide⟩, ⟨_, rfl, by decide⟩, ⟨_, rfl, by decide⟩, ⟨_, rfl, by decide⟩, ⟨_, rfl, by decide⟩, ⟨_, rfl, by decide⟩⟩
theorem witness_OnlyInitChangesReady :
    (∃ t, exec .init (idleState loaded) = .next t ∧ loaded.ready = false ∧ t.engine.ready = true) ∧
    (∃ t, exec .init (idleState { machine with cfgPan := zeroTable }) = .next t ∧ machine.ready = true ∧
      t.engine.ready = false) := ⟨⟨_, rfl, by decide⟩, ⟨_, rfl, by decide⟩⟩
theorem witness_ConfigurationWritesWaitForInit : configTarget (.ldpan 1 14) ≠ none ∧ ∃ d, Instr.enc 0x65 = .enc d :=
  ⟨by decide, _, rfl⟩
theorem witness_LoadsOfDifferentCellsCommute : configTarget (.ldrot 2 0 5) = some (.rot 2 0) ∧
    configTarget (.ldrot 2 15 5) = some (.rot 2 15) ∧ ConfigCell.rot 2 0 ≠ .rot 2 15 := by decide
theorem witness_IsPermMeansEverySymbolOnce : isPerm identity = true ∧ isPerm zeroTable = false := by decide
theorem witness_RotateMovesEachSymbolDown : isPerm thirdWiring = true ∧ pos thirdWiring 2 = some 0 := by decide
theorem witness_RotorPassesAreInverse : isPerm thirdWiring = true := by decide
theorem witness_PanelExchangesNeighbours : isPerm panelTable = true ∧ ∀ i, cell zeroTable i ≠ 3 := by decide
theorem witness_ReflectorContract : isReflector (pairswap identity) = true := by decide
theorem witness_EncbAnswersAndChangesNothing : (idleState machine).engine.ready = true := by decide
theorem witness_OneBytePassIsSelfReciprocal : machine.LiveOk := by decide
theorem witness_NoSymbolEnciphersToItself : machine.LiveOk := by decide
theorem witness_SteppingRule : (0 : Fin 8).val = 0 ∧ (7 : Fin 8).val ≤ 7 ∧ (0 : Nat) < 4 * (7 : Fin 8).val := by decide
theorem witness_StepCommandSteps : (idleState { machine with ctr := 0xFFFFFFFF }).engine.ready = true ∧
    (idleState { machine with ctr := 0xFFFFFFFF }).engine.ctr = 0xFFFFFFFF := by decide
theorem witness_EncEnciphersThenSteps : (idleState machine).engine.ready = true := by decide
/-- Cycles: an idle one, ENC 0x48 presented, two of latency, its response, RDCTR 0 presented, its response. -/
def cycles : List PortIn := [⟨false, false, 0, true⟩, ⟨false, true, 0x8048, false⟩, ⟨false, true, 0xA000, false⟩,
  ⟨false, true, 0xA000, false⟩, ⟨false, true, 0xA000, true⟩, ⟨false, true, 0xA000, false⟩, ⟨false, false, 0, true⟩]
theorem witness_PortsRunTransactions : (∀ x ∈ cycles, x.rst = false) ∧
    Ported.acceptedWords cycles ⟨machine, none⟩ = [0x8048, 0xA000] ∧
    Ported.responses cycles ⟨machine, none⟩ = [0x0020, 0x0001] ∧
    Ported.acceptedWords (cycles.take 3) ⟨machine, none⟩ = [0x8048] ∧
    Ported.responses (cycles.take 3) ⟨machine, none⟩ = [] := by decide
/-- A cycle with `rst = 1` while ENC 0x48 is in flight and done, and another word is presented. -/
theorem witness_PortsRunTransactions_reset :
    (⟨true, true, 0xA000, true⟩ : PortIn).rst = true ∧
    (Ported.after (cycles.take 3) ⟨machine, none⟩).inFlight = some 0x8048 ∧
    (Ported.after (cycles.take 3 ++ [⟨true, true, 0xA000, true⟩]) ⟨machine, none⟩).inFlight = none ∧
    (Ported.after (cycles.take 3 ++ [⟨true, true, 0xA000, true⟩]) ⟨machine, none⟩).engine.ready = false ∧
    Ported.responses (cycles.take 3 ++ [⟨true, true, 0xA000, true⟩]) ⟨machine, none⟩ = [] := by decide
theorem witness_ClosedFormOfRotorPositions : 3 ≤ 8 ∧ loaded.ConfigOk := by decide
theorem witness_StreamStepsOncePerByte : machine.ready = true ∧ 1 < ([0x48, 0x65] : List Byte).length := by decide
theorem witness_StepsResumeASession : loaded.ConfigOk := by decide
theorem witness_SecondSessionDeciphersTheFirst : loaded.ConfigOk ∧ withError.SameConfig loaded := by decide
theorem witness_OtherCommandsKeepTheLiveState : Instr.rdst ≠ .init ∧ Instr.rdst ≠ .step ∧ ∀ d, Instr.rdst ≠ .enc d :=
  ⟨by decide, by decide, fun _ h => Instr.noConfusion h⟩
theorem witness_UnspecifiedTablesAreUnobservable :
    loaded.ready = false ∧
    { loaded with rot := machine.rot, panO := machine.panO, panW := machine.panW, refW := machine.refW } =
      { machine with ready := false } := by decide
theorem witness_SessionsDependOnConfigurationOnly :
    loaded.ConfigOk ∧ loaded.SameConfig machine.stepRotors ∧ loaded.SameRecord machine.stepRotors := by decide
theorem witness_RdrotAnswersOneCell : (idleState machine).engine.ready = true ∧
    (2 : BitVec 3).toNat = (⟨2, by decide⟩ : Fin Config.nRotors).val := by decide

end Sys2Proof.Tests
end

/-! Proofs: which tables are permutations, and how the pair swap, the rotation and the two rotor passes
act on them (40_permutation_lut.md R65 to R78). -/

section
namespace Sys2Proof.Machine

/-! ## Permutation tables -/

/-- The list of a table's cells is its cell function over the alphabet. -/
theorem toList_eq_map_cell (T : Table) : T.toList = Config.alphabet.map (cell T) := by
  apply List.ext_getElem
  · simp [Config.alphabet]
  · intro i hi _
    have halphabet : ∀ k : Fin 16, Config.alphabet[k.val] = BitVec.ofFin k := by decide
    have hi : i < 16 := by simpa using hi
    simp [cell, halphabet ⟨i, hi⟩]

theorem nodup_alphabet : Config.alphabet.Nodup := by decide

/-- R65: the check that each symbol occurs once says that the cell function is a bijection. -/
theorem isPerm_iff_bijective (T : Table) : isPerm T = true ↔ Function.Bijective (cell T) := by
  have hcount : isPerm T = true ↔ ∀ v, (Config.alphabet.map (cell T)).count v = 1 := by
    simp [isPerm, toList_eq_map_cell]
  rw [hcount]
  constructor
  · intro h
    have hnodup : (Config.alphabet.map (cell T)).Nodup :=
      List.nodup_iff_count_le_one.2 fun v => (h v).le
    have hinj : Function.Injective (cell T) := fun i j hij =>
      List.inj_on_of_nodup_map hnodup (mem_alphabet i) (mem_alphabet j) hij
    exact Finite.injective_iff_bijective.1 hinj
  · rintro ⟨hinj, hsurj⟩ v
    obtain ⟨i, rfl⟩ := hsurj v
    exact List.count_eq_one_of_mem (nodup_alphabet.map hinj) (List.mem_map_of_mem (mem_alphabet i))

/-- The cells of a finite table are a bijection as soon as they are pairwise different. -/
theorem isPerm_iff_injective (T : Table) : isPerm T = true ↔ Function.Injective (cell T) :=
  (isPerm_iff_bijective T).trans Finite.injective_iff_bijective.symm

/-- Moving the cells of a table about by a bijection of the indices keeps permutations, both ways. -/
theorem isPerm_iff_of_reindex {T U : Table} {g : Nibble → Nibble} (hg : Function.Bijective g)
    (h : ∀ i, cell U i = cell T (g i)) : isPerm U = true ↔ isPerm T = true := by
  have hcomp : cell U = cell T ∘ g := funext h
  rw [isPerm_iff_bijective, isPerm_iff_bijective, hcomp, Function.Bijective.of_comp_iff _ hg]

/-! ## The pair swap -/

/-- Exchanging each even index with the odd one after it undoes itself. -/
theorem involutive_xor_one : Function.Involutive fun i : Nibble => i ^^^ 1#4 :=
  fun i => xor_cancel_right i 1#4

theorem xor_one_ofNat_even (j : Fin 8) : BitVec.ofNat 4 (2 * j) ^^^ 1#4 = BitVec.ofNat 4 (2 * j + 1) := by
  revert j; decide

/-- R69: the pair swap undoes itself. -/
@[simp] theorem pairswap_pairswap (T : Table) : pairswap (pairswap T) = T :=
  table_ext fun i => by rw [cell_pairswap, cell_pairswap, xor_cancel_right]

@[simp] theorem isPerm_pairswap_iff (T : Table) : isPerm (pairswap T) = true ↔ isPerm T = true :=
  isPerm_iff_of_reindex involutive_xor_one.bijective (cell_pairswap T)

/-! ## The rotation -/

@[simp] theorem rotl_zero (T : Table) : rotl T 0 = T := table_ext fun i => by simp

/-- Rotations add: the carry out of the 4-bit index is discarded either way (R70, R80). -/
theorem rotl_rotl (T : Table) (p q : Nat) : rotl (rotl T p) q = rotl T (p + q) :=
  table_ext fun i => by
    rw [cell_rotl, cell_rotl, cell_rotl, BitVec.ofNat_add, add_assoc, add_comm (BitVec.ofNat 4 q)]

theorem rotl_mod (T : Table) (p : Nat) : rotl T (p % 16) = rotl T p := by
  have hp : BitVec.ofNat 4 (p % 16) = BitVec.ofNat 4 p := BitVec.eq_of_toNat_eq (by simp)
  simp [rotl, hp]

@[simp] theorem isPerm_rotl_iff (T : Table) (p : Nat) : isPerm (rotl T p) = true ↔ isPerm T = true :=
  isPerm_iff_of_reindex (Equiv.addRight (BitVec.ofNat 4 p)).bijective (cell_rotl T p)

/-- R70 in natural numbers: cell `i` of the rotation is cell `(i + p) mod 16` of the table. -/
theorem cell_rotl_toNat (T : Table) (p : Nat) (i : Nibble) :
    cell (rotl T p) i = cell T (.ofNat 4 ((i.toNat + p) % 16)) := by
  have hindex : i + BitVec.ofNat 4 p = BitVec.ofNat 4 ((i.toNat + p) % 16) :=
    BitVec.eq_of_toNat_eq (by simp)
  rw [cell_rotl, hindex]

/-! ## The look-ups of a permutation -/

/-- In a permutation a symbol's position is the one cell that holds it (R66). -/
theorem pos_cell_of_isPerm {T : Table} (h : isPerm T = true) (i : Nibble) : pos T (cell T i) = some i := by
  have hfound : (pos T (cell T i)).isSome := by
    rw [pos, List.find?_isSome]
    exact ⟨i, mem_alphabet i, by simp⟩
  obtain ⟨j, hj⟩ := Option.isSome_iff_exists.1 hfound
  have hji : j = i := (isPerm_iff_injective T).1 h (cell_of_pos hj)
  rw [hj, hji]

theorem exists_pos_of_isPerm {T : Table} (h : isPerm T = true) (c : Nibble) : ∃ i, pos T c = some i := by
  obtain ⟨i, rfl⟩ := ((isPerm_iff_bijective T).1 h).surjective c
  exact ⟨i, pos_cell_of_isPerm h i⟩

/-- R72: the backward pass reads the cell. -/
@[simp] theorem rotorBackward_eq_cell (W : Table) (c : Nibble) : rotorBackward W c = cell W c := rfl

/-- R71: through a permutation the forward pass is the position; the free value of log 8 is not used. -/
theorem pos_eq_rotorForward {W : Table} (h : isPerm W = true) (c : Nibble) :
    pos W c = some (rotorForward W c) := by
  obtain ⟨i, hi⟩ := exists_pos_of_isPerm h c
  rw [hi, rotorForward_of_pos hi]

/-! ## The obligations -/

/-- Settles O34: both forms say that the cell function is a bijection of the 16 symbols. -/
theorem isPermMeansEverySymbolOnce : Obligations.IsPermMeansEverySymbolOnce := by
  intro T
  constructor
  · rw [isPerm_iff_bijective, Function.bijective_iff_existsUnique]
  · rw [isPerm_iff_injective, Function.injective_iff_pairwise_ne]
    rfl

/-- Settles O36: the swap reads the table at the index with its low bit flipped, a bijection of the indices. -/
theorem pairswapLaws : Obligations.PairswapLaws := by
  intro T
  refine ⟨fun j => ⟨?_, ?_⟩, cell_pairswap T, pairswap_pairswap T, isPerm_pairswap_iff T⟩
  · rw [cell_pairswap, xor_one_ofNat_even]
  · rw [cell_pairswap, ← xor_one_ofNat_even, xor_cancel_right]

/-- Settles O37: the rotation reads the table at the index plus `p` in 4 bits, a bijection of the indices. -/
theorem rotationLaws : Obligations.RotationLaws := by
  intro T p q
  have hsixteen : rotl T 16 = T := (rotl_mod T 16).symm.trans (rotl_zero T)
  exact ⟨cell_rotl_toNat T p, rotl_zero T, (rotl_mod T p).symm, rotl_rotl T p q, hsixteen, isPerm_rotl_iff T p⟩

/-- Settles O39: the forward pass finds the one cell that holds `c`, and the backward pass reads it. -/
theorem rotorPassesAreInverse : Obligations.RotorPassesAreInverse := by
  intro W c h
  have hback : rotorBackward W (rotorForward W c) = c := by
    rw [rotorBackward_eq_cell, cell_of_pos (pos_eq_rotorForward h c)]
  have hforth : rotorForward W (rotorBackward W c) = c := by
    rw [rotorBackward_eq_cell, rotorForward_of_pos (pos_cell_of_isPerm h c)]
  exact ⟨hback, hforth, pos_eq_rotorForward h c, rotorBackward_eq_cell W c⟩

end Sys2Proof.Machine
end

/-! Proofs: what INIT answers in each case, by the first check of 41_config_and_init.md R89 that fails, and the
machine it builds when none does (R90). -/

section
namespace Sys2Proof.Machine

variable {N : Nat}

/-! ## The first check that fails -/

/-- The rotor reported is the first whose static table is no permutation (R89). -/
theorem Engine.badRotor_eq_some_iff {e : Engine N} {k : Fin N} :
    e.badRotor = some k ↔ isPerm e.cfgRot[k] = false ∧ ∀ j : Fin N, j < k → isPerm e.cfgRot[j] = true := by
  rw [Engine.badRotor, ← Fin.find?_eq_find?_finRange, Fin.find?_eq_some_iff]
  simp

theorem Engine.initFailure_of_badRotor {e : Engine N} {k : Fin N} (h : e.badRotor = some k) :
    e.initFailure = some (.badRotorTable, .ofNat 3 k) := by
  simp [Engine.initFailure, h]

/-- Past the rotor tables the checks are the reflector table, its pairing and the panel table, in this order (R89). -/
theorem Engine.initFailure_of_rotors {e : Engine N} (h : ∀ k : Fin N, isPerm e.cfgRot[k] = true) :
    e.initFailure =
      if isPerm e.cfgRef = false then some (.badReflectorTable, 0)
      else if isReflector (pairswap e.cfgRef) = false then some (.badReflectorPairing, 0)
      else if isPerm e.cfgPan = false then some (.badPanelTable, 0)
      else none := by
  simp [Engine.initFailure, Engine.badRotor_none.2 h]

/-! ## The two answers of INIT -/

theorem Engine.init_of_failure {e : Engine N} {c : RefuseCode} {i : BitVec 3} (h : e.initFailure = some (c, i)) :
    e.init = { e with ready := false }.refuse c i := by
  simp [Engine.init, h]

theorem Engine.init_of_configOk {e : Engine N} (h : e.ConfigOk) : e.init = e.construct.respond 0 := by
  simp [Engine.init, Engine.initFailure_none.2 h]

/-- R89, `fail`: READY is cleared, the record is written if it is free, and the refusal is answered. -/
theorem exec_init_of_failure {s : State} {c : RefuseCode} {i : BitVec 3}
    (h : s.engine.initFailure = some (c, i)) :
    exec .init s = .next (s.answered
      (if s.engine.err then { s.engine with ready := false }
        else { s.engine with ready := false, err := true, errCode := c.bits, errInfo := i })
      (refuseResponse c i)) := by
  rw [exec_eq_transact, transact_eq, Engine.command, Engine.init_of_failure h]
  rfl

/-- R90: with every check passed, INIT constructs and answers 0. -/
theorem exec_init_of_configOk {s : State} (h : s.engine.ConfigOk) :
    exec .init s = .next (s.answered s.engine.construct 0x0000) := by
  rw [exec_eq_transact, transact_eq, Engine.command, Engine.init_of_configOk h]
  rfl

/-- R50, R130: the rotor number stands in bits 10:8 of a rotor table's refusal. -/
theorem refuseResponse_badRotorTable (k : Fin 8) :
    refuseResponse .badRotorTable (.ofNat 3 k) = .ofNat 16 (0xB000 + 0x100 * k) := by
  revert k; decide

/-! ## The machine constructed -/

/-- R90: cell `i` of a live rotor is cell `(i + CFG_OFF[k]) mod 16` of its static table. -/
theorem cell_construct_rot (e : Engine N) (k : Fin N) (i : Nibble) :
    cell e.construct.rot[k] i = cell e.cfgRot[k] (.ofNat 4 ((i.toNat + e.cfgOff[k].toNat) % 16)) := by
  have hrot : e.construct.rot[k] = rotl e.cfgRot[k] e.cfgOff[k].toNat := by simp
  rw [hrot, cell_rotl_toNat]

/-! ## The obligations -/

/-- Settles O23: each clause names the first check that fails, and INIT answers with that check's code. -/
theorem initReportsTheFirstFailure : Obligations.InitReportsTheFirstFailure := by
  intro s e refusedWith rotorsOk
  refine ⟨fun k hbad hbefore => ?rotor, fun hrot href => ?reflector, fun hrot href hpair => ?pairing,
    fun hrot href hpair hpan => ?panel⟩
  case rotor =>
    have hfail := Engine.initFailure_of_badRotor (Engine.badRotor_eq_some_iff.2 ⟨hbad, hbefore⟩)
    have hword := refuseResponse_badRotorTable (k.castLE (by decide))
    exact hword ▸ exec_init_of_failure hfail
  case reflector =>
    have hfail : e.initFailure = some (.badReflectorTable, 0) := by
      simp [Engine.initFailure_of_rotors hrot, href]
    exact exec_init_of_failure hfail
  case pairing =>
    have hfail : e.initFailure = some (.badReflectorPairing, 0) := by
      simp [Engine.initFailure_of_rotors hrot, href, hpair]
    exact exec_init_of_failure hfail
  case panel =>
    have hfail : e.initFailure = some (.badPanelTable, 0) := by
      simp [Engine.initFailure_of_rotors hrot, href, hpair, hpan]
    exact exec_init_of_failure hfail

/-- Settles O27: a legal configuration is constructed, and the live tables are rotations and pair swaps of it. -/
theorem initConstructsTheMachine : Obligations.InitConstructsTheMachine := by
  intro s hok
  obtain ⟨hpan, -⟩ := pairswapLaws s.engine.cfgPan
  obtain ⟨href, -⟩ := pairswapLaws s.engine.cfgRef
  exact ⟨_, exec_init_of_configOk hok, cell_construct_rot s.engine, rfl,
    fun j => ⟨(hpan j).1, (hpan j).2, (href j).1, (href j).2⟩, rfl, rfl, ⟨rfl, rfl, rfl, rfl⟩, ⟨rfl, rfl, rfl⟩,
    rfl, rfl⟩

end Sys2Proof.Machine
end

/-! Proofs: the one-byte pass is the reflector conjugated by the way to it, so it inherits the reflector's laws
(42_encipher_datapath.md R104, R105). -/

section
namespace Sys2Proof.Machine

variable {N : Nat}

/-! ## The panel -/

/-- R74 on a symbol of the original wiring: it is exchanged for the one at the same place of the wiring. -/
theorem commutate_cell {O : Table} (h : isPerm O = true) (P : Table) (i : Nibble) :
    commutate O P (cell O i) = cell P i := by
  rw [commutate, pos_cell_of_isPerm h]

/-- R75: a panel wired as the pair swap of its original wiring undoes itself. -/
theorem commutate_pairswap_involutive {O : Table} (h : isPerm O = true) :
    Function.Involutive (commutate O (pairswap O)) := by
  intro c
  obtain ⟨i, rfl⟩ := ((isPerm_iff_bijective O).1 h).surjective c
  rw [commutate_cell h, cell_pairswap, commutate_cell h, cell_pairswap, xor_cancel_right]

/-! ## The rotors -/

theorem foldr_rotorBackward_foldl_rotorForward {Ws : List Table} (h : ∀ W ∈ Ws, isPerm W = true) (c : Nibble) :
    Ws.foldr rotorBackward (Ws.foldl (fun c W => rotorForward W c) c) = c := by
  induction Ws generalizing c with
  | nil => rfl
  | cons W Ws ih =>
    obtain ⟨hW, hWs⟩ := List.forall_mem_cons.1 h
    obtain ⟨hback, -⟩ := rotorPassesAreInverse W c hW
    rw [List.foldl_cons, List.foldr_cons, ih hWs, hback]

theorem foldl_rotorForward_foldr_rotorBackward {Ws : List Table} (h : ∀ W ∈ Ws, isPerm W = true) (c : Nibble) :
    Ws.foldl (fun c W => rotorForward W c) (Ws.foldr rotorBackward c) = c := by
  induction Ws with
  | nil => rfl
  | cons W Ws ih =>
    obtain ⟨hW, hWs⟩ := List.forall_mem_cons.1 h
    obtain ⟨-, hforth, -⟩ := rotorPassesAreInverse W (Ws.foldr rotorBackward c) hW
    rw [List.foldr_cons, List.foldl_cons, hforth, ih hWs]

theorem isPerm_of_mem_rot {rot : Vector Table N} (h : ∀ k : Fin N, isPerm rot[k] = true) :
    ∀ W ∈ rot.toList, isPerm W = true := by
  intro W hW
  obtain ⟨k, hk, rfl⟩ := Vector.mem_iff_getElem.1 (Vector.mem_toList_iff.1 hW)
  exact h ⟨k, hk⟩

/-- The backward pass through all rotors undoes the forward pass (R78 for every rotor, last one first). -/
theorem rotorsBackward_leftInverse {rot : Vector Table N} (h : ∀ k : Fin N, isPerm rot[k] = true) :
    Function.LeftInverse (rotorsBackward rot) (rotorsForward rot) :=
  foldr_rotorBackward_foldl_rotorForward (isPerm_of_mem_rot h)

theorem rotorsForward_leftInverse {rot : Vector Table N} (h : ∀ k : Fin N, isPerm rot[k] = true) :
    Function.LeftInverse (rotorsForward rot) (rotorsBackward rot) :=
  foldl_rotorForward_foldr_rotorBackward (isPerm_of_mem_rot h)

/-! ## The way to the reflector and back -/

/-- The first half of R101: panel, then the rotors forward. -/
def Engine.toReflector (e : Engine N) (x : Nibble) : Nibble :=
  rotorsForward e.rot (commutate e.panO e.panW x)

/-- The second half of R101: the rotors backward, then panel. -/
def Engine.fromReflector (e : Engine N) (y : Nibble) : Nibble :=
  commutate e.panO e.panW (rotorsBackward e.rot y)

/-- R101: the pass of a nibble is the reflector between its two halves. -/
theorem Engine.encipherNibble_eq (e : Engine N) (x : Nibble) :
    e.encipherNibble x = e.fromReflector (reflect e.refW (e.toReflector x)) := rfl

theorem Engine.LiveOk.commutate_involutive {e : Engine N} (h : e.LiveOk) :
    Function.Involutive (commutate e.panO e.panW) := by
  obtain ⟨-, hpanO, -, hpair, -⟩ := h
  rw [hpair]
  exact commutate_pairswap_involutive hpanO

theorem Engine.LiveOk.fromReflector_toReflector {e : Engine N} (h : e.LiveOk) (x : Nibble) :
    e.fromReflector (e.toReflector x) = x := by
  rw [Engine.fromReflector, Engine.toReflector, rotorsBackward_leftInverse h.1, h.commutate_involutive]

theorem Engine.LiveOk.toReflector_fromReflector {e : Engine N} (h : e.LiveOk) (y : Nibble) :
    e.toReflector (e.fromReflector y) = y := by
  rw [Engine.toReflector, Engine.fromReflector, h.commutate_involutive, rotorsForward_leftInverse h.1]

/-- R77 on the live reflector: an involution with no fixed point. -/
theorem Engine.LiveOk.reflect_laws {e : Engine N} (h : e.LiveOk) (y : Nibble) :
    reflect e.refW (reflect e.refW y) = y ∧ reflect e.refW y ≠ y := by
  obtain ⟨-, -, -, -, -, hrefl⟩ := h
  exact (isReflector_forall e.refW).1 hrefl y

/-! ## The pass of a nibble -/

/-- R104 on a symbol: the inner halves cancel, then the two reflections, then the outer halves. -/
theorem Engine.LiveOk.encipherNibble_involutive {e : Engine N} (h : e.LiveOk) :
    Function.Involutive e.encipherNibble := by
  intro x
  obtain ⟨hinvol, -⟩ := h.reflect_laws (e.toReflector x)
  rw [e.encipherNibble_eq, e.encipherNibble_eq, h.toReflector_fromReflector, hinvol, h.fromReflector_toReflector]

/-- R105 on a symbol: a fixed point of the pass would reach the reflector at a fixed point of its table. -/
theorem Engine.LiveOk.encipherNibble_ne_self {e : Engine N} (h : e.LiveOk) (x : Nibble) :
    e.encipherNibble x ≠ x := by
  intro hfixed
  obtain ⟨-, hne⟩ := h.reflect_laws (e.toReflector x)
  apply hne
  rw [← h.toReflector_fromReflector (reflect e.refW (e.toReflector x)), ← e.encipherNibble_eq, hfixed]

/-! ## The pass of a byte -/

@[simp] theorem highNibble_joinNibbles (p q : Nibble) : highNibble (joinNibbles p q) = p :=
  BitVec.extractLsb'_append_eq_left

@[simp] theorem lowNibble_joinNibbles (p q : Nibble) : lowNibble (joinNibbles p q) = q :=
  BitVec.extractLsb'_append_eq_right

@[simp] theorem joinNibbles_highNibble_lowNibble (d : Byte) : joinNibbles (highNibble d) (lowNibble d) = d := by
  revert d; decide

@[simp] theorem Engine.highNibble_encipherByte (e : Engine N) (d : Byte) :
    highNibble (e.encipherByte d) = e.encipherNibble (highNibble d) := highNibble_joinNibbles _ _

@[simp] theorem Engine.lowNibble_encipherByte (e : Engine N) (d : Byte) :
    lowNibble (e.encipherByte d) = e.encipherNibble (lowNibble d) := lowNibble_joinNibbles _ _

/-- R104 on a byte, nibble by nibble. -/
theorem Engine.LiveOk.encipherByte_involutive {e : Engine N} (h : e.LiveOk) :
    Function.Involutive e.encipherByte := by
  intro d
  rw [Engine.encipherByte, e.highNibble_encipherByte, e.lowNibble_encipherByte, h.encipherNibble_involutive,
    h.encipherNibble_involutive, joinNibbles_highNibble_lowNibble]

/-! ## The obligations -/

/-- Settles O45: the pass is the reflector, an involution, between two halves that undo each other. -/
theorem oneBytePassIsSelfReciprocal : Obligations.OneBytePassIsSelfReciprocal :=
  fun _ _ h => ⟨h.encipherNibble_involutive, h.encipherByte_involutive⟩

/-- Settles O46: the reflector has no fixed point, so neither has the pass, and an involution is a bijection. -/
theorem noSymbolEnciphersToItself : Obligations.NoSymbolEnciphersToItself := by
  intro N e h
  have hhigh : ∀ d, highNibble (e.encipherByte d) ≠ highNibble d := fun d => by
    rw [e.highNibble_encipherByte]
    exact h.encipherNibble_ne_self _
  have hlow : ∀ d, lowNibble (e.encipherByte d) ≠ lowNibble d := fun d => by
    rw [e.lowNibble_encipherByte]
    exact h.encipherNibble_ne_self _
  have hbyte : ∀ d, e.encipherByte d ≠ d := fun d hfixed => hhigh d (congrArg highNibble hfixed)
  exact ⟨h.encipherNibble_ne_self, hbyte, fun d => ⟨hhigh d, hlow d⟩, h.encipherNibble_involutive.bijective,
    h.encipherByte_involutive.bijective⟩

end Sys2Proof.Machine
end

/-! Proofs: one stepping event, and the streams of two sessions on engines configured alike
(43_rotor_stepper.md R110, R115). -/

section
namespace Sys2Proof.Machine

variable {N : Nat}

/-! ## One stepping event -/

/-- The low `n` bits of a number are 0 exactly when it is a multiple of `2 ^ n`. -/
theorem mod_two_pow_eq_zero_iff_testBit (x n : Nat) : x % 2 ^ n = 0 ↔ ∀ i < n, x.testBit i = false := by
  constructor
  · intro hmod i hi
    have hbit : (x % 2 ^ n).testBit i = x.testBit i := by simp [hi]
    rw [← hbit, hmod, Nat.zero_testBit]
  · intro hlow
    apply Nat.zero_of_testBit_eq_false
    intro i
    rw [Nat.testBit_mod_two_pow]
    by_cases hi : i < n
    · simp [hlow i hi]
    · simp [hi]

/-- R110, the carry test: a multiple of `16 ^ k` is a word whose low `4 k` bits are 0. -/
theorem toNat_mod_sixteen_pow_eq_zero_iff {w : Nat} (c : BitVec w) (k : Nat) :
    c.toNat % 16 ^ k = 0 ↔ ∀ n < 4 * k, c.getLsbD n = false := by
  have hpow : 16 ^ k = 2 ^ (4 * k) := by rw [pow_mul]; norm_num
  rw [hpow, mod_two_pow_eq_zero_iff_testBit]
  rfl

theorem Engine.toNat_stepRotors_ctr (e : Engine N) : e.stepRotors.ctr.toNat = (e.ctr.toNat + 1) % 2 ^ 32 := by
  simp

/-- R110: a rotor rotates exactly when the new counter is a multiple of its power of 16. -/
theorem Engine.stepRotors_rot_getElem (e : Engine N) (k : Fin N) :
    e.stepRotors.rot[k] =
      if e.stepRotors.ctr.toNat % 16 ^ k.val = 0 then rotorRotate e.rot[k] else e.rot[k] := by
  simp

/-- A rotor is stepped or kept, and either way its wiring stays a permutation (R15 a). -/
theorem Engine.isPerm_stepRotors_rot {e : Engine N} (h : ∀ k : Fin N, isPerm e.rot[k] = true) (k : Fin N) :
    isPerm e.stepRotors.rot[k] = true := by
  rw [e.stepRotors_rot_getElem]
  split
  · rw [rotorRotate, isPerm_rotl_iff, h]
  · exact h k

/-- A stepping event keeps the live tables legal: only the rotors change. -/
theorem Engine.LiveOk.stepRotors {e : Engine N} (h : e.LiveOk) : e.stepRotors.LiveOk := by
  obtain ⟨hrot, hrest⟩ := h
  exact ⟨Engine.isPerm_stepRotors_rot hrot, hrest⟩

/-! ## The machine that a legal configuration gives -/

theorem Engine.ConfigOk.construct_liveOk {e : Engine N} (h : e.ConfigOk) : e.construct.LiveOk := by
  obtain ⟨hrot, href, hpair, hpan⟩ := h
  have hlive : ∀ k : Fin N, isPerm e.construct.rot[k] = true := fun k => by simpa using hrot k
  exact ⟨hlive, hpan, (isPerm_pairswap_iff _).2 hpan, rfl, (isPerm_pairswap_iff _).2 href, hpair⟩

theorem Engine.SameConfig.configOk {a b : Engine N} (h : a.SameConfig b) (hb : b.ConfigOk) : a.ConfigOk := by
  obtain ⟨hrot, -, href, hpan⟩ := h
  rwa [Engine.ConfigOk, hrot, href, hpan]

/-- R91: the live state constructed reads nothing but the configuration. -/
theorem Engine.SameConfig.construct_sameLive {a b : Engine N} (h : a.SameConfig b) :
    a.construct.SameLive b.construct := by
  obtain ⟨hrot, hoff, href, hpan⟩ := h
  simp [Engine.SameLive, hrot, hoff, href, hpan]

/-! ## Engines with the same live state -/

/-- R101, R103: the pass reads nothing but the live tables. -/
theorem Engine.SameLive.encipherByte_eq {a b : Engine N} (h : a.SameLive b) (d : Byte) :
    a.encipherByte d = b.encipherByte d := by
  obtain ⟨hrot, hpanO, hpanW, hrefW, -⟩ := h
  simp [Engine.encipherByte, Engine.encipherNibble, hrot, hpanO, hpanW, hrefW]

/-- R110: a stepping event reads nothing but the rotors and the counter. -/
theorem Engine.SameLive.stepRotors {a b : Engine N} (h : a.SameLive b) :
    a.stepRotors.SameLive b.stepRotors := by
  obtain ⟨hrot, hpanO, hpanW, hrefW, hctr⟩ := h
  simp [Engine.SameLive, hrot, hpanO, hpanW, hrefW, hctr]

/-! ## Sessions and streams, word by word -/

@[simp] theorem responseData_dataResponse (d : Byte) : responseData (dataResponse d) = d :=
  BitVec.extractLsb'_append_eq_right

theorem decode_encode_init : decode (encode .init) = .command .init := by decide

theorem decode_encode_enc (d : Byte) : decode (encode (.enc d)) = .command (.enc d) := by
  revert d; decide

theorem Engine.accept_encode {i : Instr} (h : decode (encode i) = .command i) (e : Engine N) :
    e.accept (encode i) = e.command i := by
  rw [Engine.accept, h]

theorem Engine.accept_init_of_configOk {e : Engine N} (h : e.ConfigOk) :
    e.accept (encode .init) = (e.construct, dataResponse 0) :=
  (e.accept_encode decode_encode_init).trans (Engine.init_of_configOk h)

/-- R112: with a machine built, ENC answers the byte enciphered with the state before the step. -/
theorem Engine.enc_of_ready {e : Engine N} (h : e.ready = true) (d : Byte) :
    e.enc d = (e.stepRotors, dataResponse (e.encipherByte d)) :=
  Engine.whenReady_of_ready (fun e => e.stepRotors.respond (e.encipherByte d)) h

theorem Engine.accept_enc_of_ready {e : Engine N} (h : e.ready = true) (d : Byte) :
    e.accept (encode (.enc d)) = (e.stepRotors, dataResponse (e.encipherByte d)) :=
  (e.accept_encode (decode_encode_enc d)).trans (Engine.enc_of_ready h d)

/-- A session that begins with a successful INIT runs the rest on the machine constructed. -/
theorem Engine.session_init_of_configOk {e : Engine N} (h : e.ConfigOk) (ws : List CmdWord) :
    Engine.session (encode .init :: ws) e =
      ((e.construct.session ws).1, dataResponse 0 :: (e.construct.session ws).2) := by
  rw [Engine.session, Engine.accept_init_of_configOk h]

/-- A stream's first byte is enciphered before the step, and the rest of it after the step (R113). -/
theorem Engine.session_streamWords_cons {e : Engine N} (h : e.ready = true) (d : Byte) (ds : List Byte) :
    Engine.session (streamWords (d :: ds)) e =
      ((e.stepRotors.session (streamWords ds)).1,
        dataResponse (e.encipherByte d) :: (e.stepRotors.session (streamWords ds)).2) := by
  rw [streamWords, List.map_cons, Engine.session, Engine.accept_enc_of_ready h, ← streamWords]

/-- The output of a stream of bytes, as the next session would be fed it. -/
def Engine.outputStream (e : Engine N) (ds : List Byte) : List Byte :=
  streamData (e.session (streamWords ds)).2

theorem Engine.outputStream_cons {e : Engine N} (h : e.ready = true) (d : Byte) (ds : List Byte) :
    e.outputStream (d :: ds) = e.encipherByte d :: e.stepRotors.outputStream ds := by
  rw [Engine.outputStream, Engine.session_streamWords_cons h, streamData, List.map_cons, responseData_dataResponse]
  rfl

/-- A stream steps the machine and leaves the configuration tables as they were (R113). -/
theorem Engine.session_streamWords_sameConfig {e : Engine N} (h : e.ready = true) (ds : List Byte) :
    (Engine.session (streamWords ds) e).1.SameConfig e := by
  induction ds generalizing e with
  | nil => exact ⟨rfl, rfl, rfl, rfl⟩
  | cons d ds ih =>
    have hstep := ih (e := e.stepRotors) h
    rwa [Engine.session_streamWords_cons h]

/-! ## Two sessions -/

/-- R115 from one live state on: the two machines step in lockstep, so each output byte meets the pass that
made it, and that pass undoes itself (R104). -/
theorem Engine.outputStream_outputStream {f g : Engine N} (hf : f.ready = true) (hg : g.ready = true)
    (hlive : f.LiveOk) (hsame : g.SameLive f) (ds : List Byte) : g.outputStream (f.outputStream ds) = ds := by
  induction ds generalizing f g with
  | nil => rfl
  | cons d ds ih =>
    have hbyte : g.encipherByte (f.encipherByte d) = d := by
      rw [hsame.encipherByte_eq, hlive.encipherByte_involutive]
    have hrest : g.stepRotors.outputStream (f.stepRotors.outputStream ds) = ds :=
      ih hf hg hlive.stepRotors hsame.stepRotors
    rw [Engine.outputStream_cons hf, Engine.outputStream_cons hg, hbyte, hrest]

/-- A session's output past INIT's response is the stream of the machine constructed. -/
theorem Engine.streamData_tail_session {e : Engine N} (h : e.ConfigOk) (ds : List Byte) :
    streamData (Engine.session (encode .init :: streamWords ds) e).2.tail = e.construct.outputStream ds := by
  rw [Engine.session_init_of_configOk h]
  rfl

/-- A session of INIT and a stream leaves the configuration tables as they were. -/
theorem Engine.session_init_streamWords_sameConfig {e : Engine N} (h : e.ConfigOk) (ds : List Byte) :
    (Engine.session (encode .init :: streamWords ds) e).1.SameConfig e := by
  rw [Engine.session_init_of_configOk h]
  exact Engine.session_streamWords_sameConfig e.construct_ready ds

/-! ## The obligations -/

/-- Settles O47: the counter and the rotors are read off the event, and `16 ^ k` is `2 ^ (4 k)`. -/
theorem steppingRule : Obligations.SteppingRule := by
  intro N e
  have houter : ∀ k : Fin N, k.val = 0 → e.stepRotors.rot[k] = rotorRotate e.rot[k] := fun k hk => by
    have hmultiple : e.stepRotors.ctr.toNat % 16 ^ k.val = 0 := by rw [hk, pow_zero, Nat.mod_one]
    rw [e.stepRotors_rot_getElem, if_pos hmultiple]
  exact ⟨e.toNat_stepRotors_ctr, e.stepRotors_rot_getElem, houter,
    fun k _ => toNat_mod_sixteen_pow_eq_zero_iff e.stepRotors.ctr k, rfl⟩

/-- Settles O53: the second session constructs the first one's machine again, and the two step in lockstep. -/
theorem secondSessionDeciphersTheFirst : Obligations.SecondSessionDeciphersTheFirst := by
  intro N a b bytes hok first hb
  have hsame : b.SameConfig a := by
    rcases hb with rfl | hsame
    · exact Engine.session_init_streamWords_sameConfig hok bytes
    · exact hsame
  rw [Engine.streamData_tail_session (hsame.configOk hok), Engine.streamData_tail_session hok]
  exact Engine.outputStream_outputStream a.construct_ready b.construct_ready hok.construct_liveOk
    hsame.construct_sameLive bytes

end Sys2Proof.Machine
end

/-! Proofs: NOP and RDST complete in any state, and what the word RDST answers says of the status fields
(44_status_readback.md R120, R121). -/

section
namespace Sys2Proof.Machine

variable {N : Nat}

/-! ## Words as numbers -/

/-- In a concatenation the left word counts in units of the right word's range. -/
theorem toNat_append_eq_add {m n : Nat} (x : BitVec m) (y : BitVec n) :
    (x ++ y).toNat = x.toNat * 2 ^ n + y.toNat := by
  rw [BitVec.toNat_append, ← Nat.shiftLeft_add_eq_or_of_lt y.isLt, Nat.shiftLeft_eq]

/-- R50: a completed command's response word is its data byte, zero-extended. -/
@[simp] theorem toNat_dataResponse (d : Byte) : (dataResponse d).toNat = d.toNat := by
  simp only [dataResponse, toNat_append_eq_add]
  simp

theorem dataResponse_zero : dataResponse 0#8 = 0x0000 := by decide

/-- R20: the four fields of STATUS, at their places. -/
theorem Engine.toNat_status (e : Engine N) :
    e.status.toNat = e.ready.toNat + 2 * e.err.toNat + 4 * e.errCode.toNat + 32 * e.errInfo.toNat := by
  simp only [Engine.status, toNat_append_eq_add, BitVec.toNat_ofBool]
  omega

/-! ## Commands that only answer -/

/-- A command that completes with a data byte and no change answers that byte and keeps the engine. -/
theorem exec_of_respond {i : Instr} {s : State} {d : Byte} (h : s.engine.command i = s.engine.respond d) :
    exec i s = .next (s.answered s.engine (dataResponse d)) := by
  rw [exec_eq_transact, transact_eq, h, Engine.respond_engine, Engine.respond_response]

/-! ## The obligations -/

/-- Settles O57: NOP completes with the data byte 0. -/
theorem nopChangesNothing : Obligations.NopChangesNothing := by
  intro s
  rw [← dataResponse_zero]
  exact exec_of_respond rfl

/-- Settles O58: RDST completes with STATUS, whose fields are read off the response word. -/
theorem rdstAnswersStatus : Obligations.RdstAnswersStatus := by
  intro s
  have hword : (dataResponse s.engine.status).toNat = s.engine.ready.toNat + 2 * s.engine.err.toNat +
      4 * s.engine.errCode.toNat + 32 * s.engine.errInfo.toNat := by
    rw [toNat_dataResponse, Engine.toNat_status]
  exact ⟨_, exec_of_respond rfl, hword⟩

end Sys2Proof.Machine
end

/-! Proofs: the decoder and the encoder. A row of the opcode map accepts a word exactly when the word is that of
the command the row reads from it, and a command's word determines the command (30_encoding.md R47 to R54). -/

section
namespace Sys2Proof

/-! ## The fields of a word put together from fields (R48) -/

theorem fieldV_append (p : BitVec (4 + 1 + 3 + 4)) (v : Nibble) : fieldV (p ++ v) = v :=
  BitVec.extractLsb'_append_eq_right

theorem fieldD_append (p : BitVec (4 + 1 + 3)) (d : Byte) : fieldD (p ++ d) = d :=
  BitVec.extractLsb'_append_eq_right

theorem fieldB_append (p : BitVec (4 + 1 + 3 + 4 + 2)) (b : BitVec 2) : fieldB (p ++ b) = b :=
  BitVec.extractLsb'_append_eq_right

theorem fieldI_append (p : BitVec (4 + 1 + 3)) (i v : Nibble) : fieldI (p ++ i ++ v) = i := by
  apply BitVec.eq_of_toNat_eq
  simp only [fieldI, BitVec.extractLsb'_toNat, Machine.toNat_append_eq_add, Nat.shiftRight_eq_div_pow]
  omega

theorem fieldK_append (p : BitVec (4 + 1)) (k : BitVec 3) (i v : Nibble) : fieldK (p ++ k ++ i ++ v) = k := by
  apply BitVec.eq_of_toNat_eq
  simp only [fieldK, BitVec.extractLsb'_toNat, Machine.toNat_append_eq_add, Nat.shiftRight_eq_div_pow]
  omega

theorem toNat_fieldOp (w : CmdWord) : (fieldOp w).toNat = w.toNat / 2 ^ 12 := by
  simp only [fieldOp, BitVec.extractLsb'_toNat, Nat.shiftRight_eq_div_pow]
  omega

/-- R48: the row of a command's opcode reads every operand back from the command's word. -/
theorem build_encode (i : Instr) :
    ∃ r, opcodeTable[(fieldOp (encode i)).toNat]? = some r ∧ r.build (encode i) = i := by
  rw [Laws.EncodedOpcode.every i]
  cases i <;> refine ⟨_, rfl, ?_⟩ <;>
    simp only [encode, fieldK_append, fieldI_append, fieldV_append, fieldD_append, fieldB_append]

theorem encode_injective : Function.Injective encode := by
  intro i j hij
  obtain ⟨r, hr, hi⟩ := build_encode i
  obtain ⟨r', hr', hj⟩ := build_encode j
  have hrow : r = r' := Option.some.inj (by rw [← hr, ← hr', hij])
  rw [← hi, ← hj, hij, hrow]

/-! ## The rows of the opcode map (R52) -/

/-- A word is a pattern under a mask exactly when the pattern, filled in with the word's bits outside the mask,
is the word. -/
theorem and_eq_iff_fill_eq {n : Nat} {w m p : BitVec n} (hpm : p &&& m = p) :
    w &&& m = p ↔ w &&& ~~~m ||| p = w := by
  constructor
  · rintro rfl
    ext j hj
    cases hw : w[j] <;> cases hm : m[j] <;> simp [hw, hm]
  · intro h
    rw [← h, ← hpm]
    ext j hj
    cases hm : m[j] <;> simp [hm]

theorem pattern_and_mask : ∀ r ∈ opcodeTable, r.pattern &&& r.mask = r.pattern := by decide

/-- R47: the command that a row reads from any word has for its own word the row's pattern, filled in with the
operand bits of the word read. -/
theorem encode_build {r : OpcodeRow} (hr : r ∈ opcodeTable) (w : CmdWord) :
    encode (r.build w) = w &&& ~~~r.mask ||| r.pattern := by
  apply BitVec.eq_of_getLsbD_eq
  intro j hj
  simp only [opcodeTable, List.mem_cons, List.not_mem_nil, or_false] at hr
  rcases hr with rfl | rfl | rfl | rfl | rfl | rfl | rfl | rfl | rfl | rfl | rfl | rfl <;>
    simp only [encode, fieldK, fieldI, fieldV, fieldD, fieldB, BitVec.getLsbD_append, BitVec.getLsbD_extractLsb',
      BitVec.getLsbD_and, BitVec.getLsbD_or, BitVec.getLsbD_not] <;>
    interval_cases j <;> simp

theorem holds_iff_encode_build {r : OpcodeRow} (hr : r ∈ opcodeTable) (w : CmdWord) :
    r.holds w = true ↔ encode (r.build w) = w := by
  rw [OpcodeRow.holds, beq_iff_eq, and_eq_iff_fill_eq (pattern_and_mask r hr), encode_build hr]

/-- Every row's mask takes in the whole opcode, so an accepted word has the opcode of the pattern. -/
theorem fieldOp_of_and_mask {r : OpcodeRow} (hr : r ∈ opcodeTable) {w : CmdWord} (h : w &&& r.mask = r.pattern) :
    fieldOp w = fieldOp r.pattern := by
  have hmask : ∀ r ∈ opcodeTable, fieldOp r.mask = BitVec.allOnes 4 := by decide
  have hand : fieldOp (w &&& r.mask) = fieldOp w &&& fieldOp r.mask := BitVec.extractLsb'_and
  rw [← h, hand, hmask r hr, BitVec.and_allOnes]

/-! ## The decoder (R53, R54) -/

theorem encode_of_find? {w : CmdWord} {r : OpcodeRow} (h : opcodeTable.find? (fun r => r.holds w) = some r) :
    encode (r.build w) = w := by
  have hholds : r.holds w = true := by simpa using List.find?_some h
  exact (holds_iff_encode_build (List.mem_of_find?_eq_some h) w).1 hholds

theorem encode_of_decode {w : CmdWord} {i : Instr} (h : decode w = .command i) : encode i = w := by
  unfold decode at h
  split at h
  · next r hfind =>
    obtain rfl : r.build w = i := by simpa using h
    exact encode_of_find? hfind
  · simp at h

/-- The row found for a command's word reads a command with that word, and there is only one. -/
@[simp] theorem decode_encode (i : Instr) : decode (encode i) = .command i := by
  obtain ⟨r, hr, hi⟩ := build_encode i
  have hmem : r ∈ opcodeTable := List.mem_of_getElem? hr
  have hholds : r.holds (encode i) = true := (holds_iff_encode_build hmem _).2 (congrArg encode hi)
  unfold decode
  split
  · next hfind => rw [encode_injective (encode_of_find? hfind)]
  · next hnone => exact absurd hholds (by simpa using List.find?_eq_none.1 hnone r hmem)

theorem decode_eq_command_iff {w : CmdWord} {i : Instr} : decode w = .command i ↔ encode i = w :=
  ⟨encode_of_decode, fun h => h ▸ decode_encode i⟩

theorem exists_decode_eq_illegal_iff {w : CmdWord} : (∃ why, decode w = .illegal why) ↔ ∀ i, encode i ≠ w := by
  simp only [ne_eq, ← decode_eq_command_iff]
  cases decode w <;> simp

theorem decode_eq_illegal_iff {w : CmdWord} {why : IllegalWord} :
    decode w = .illegal why ↔ (∀ i, encode i ≠ w) ∧ illegalKind w = why := by
  rw [← exists_decode_eq_illegal_iff]
  unfold decode
  split <;> simp

theorem illegalKind_eq_reservedOpcode_iff {w : CmdWord} :
    illegalKind w = .reservedOpcode ↔ 0xC ≤ w.toNat / 2 ^ 12 := by
  have hle : 0xC#4 ≤ fieldOp w ↔ 0xC ≤ w.toNat / 2 ^ 12 := by rw [← toNat_fieldOp, BitVec.le_def]; rfl
  rw [illegalKind, ← hle]
  split <;> simp_all

theorem opcode_lt (i : Instr) : i.opcode.toNat < 0xC := by
  cases i <;> simp [Instr.opcode]

/-! ## The obligations -/

/-- Settles O1: the row of its opcode accepts a command's word, and no row can read another command from it. -/
theorem decodeEncodeRoundTrip : Obligations.DecodeEncodeRoundTrip := decode_encode

/-- Settles O2: the row that is found accepts the word, so the word is that of the command it reads. -/
theorem decodedWordIsTheEncoding : Obligations.DecodedWordIsTheEncoding := fun _ _ => encode_of_decode

/-- Settles O3: two rows that accept one word have its opcode, and the twelve opcodes are different. -/
theorem opcodePatternsAreDisjoint : Obligations.OpcodePatternsAreDisjoint := by
  have hops : opcodeTable.Pairwise fun r r' => fieldOp r.pattern ≠ fieldOp r'.pattern := by decide
  refine hops.imp_of_mem fun {r r'} hr hr' hne w => ?_
  rintro ⟨hw, hw'⟩
  exact hne ((fieldOp_of_and_mask hr hw).symm.trans (fieldOp_of_and_mask hr' hw'))

/-- Settles O4: a word decodes to the command with that word or to none; no command has an opcode from 0xC up. -/
theorem illegalWordsAreTheUnencoded : Obligations.IllegalWordsAreTheUnencoded := by
  intro w
  refine ⟨exists_decode_eq_illegal_iff, ?_⟩
  rw [decode_eq_illegal_iff, illegalKind_eq_reservedOpcode_iff, and_iff_right_iff_imp]
  rintro hop i rfl
  have hlt := opcode_lt i
  rw [← Laws.EncodedOpcode.every i, toNat_fieldOp] at hlt
  omega

/-- Settles O5: each of the listed words is decoded by evaluation. -/
theorem listedWordsDecode : Obligations.ListedWordsDecode := by
  unfold Obligations.ListedWordsDecode
  decide

end Sys2Proof
end

/-! Proofs: the assembler. Each command line assembles to the command's word or is rejected, and a pseudo-command
to the words of its expansion (30_encoding.md R57, R58). -/

section
namespace Sys2Proof.Machine

/-- The assembler's check and word, when on every operand in range the word is a command's. -/
theorem asmWord_of_toNat {p : Prop} [Decidable p] {w : Nat} {c : CmdWord} (h : p → c.toNat = w) :
    asmWord p w = if p then some c else none := by
  by_cases hp : p
  · have hc : BitVec.ofNat 16 w = c := by rw [← h hp, BitVec.ofNat_toNat, BitVec.setWidth_eq]
    simp [asmWord, hp, hc]
  · simp [asmWord, hp]

/-- Settles O6: with the operands in range, the fields put side by side are the fields shifted to their places
and joined by `or`, which is how R57 writes the word. -/
theorem assemblerEncodesOrRejects : Obligations.AssemblerEncodesOrRejects := by
  intro k i v d b
  refine ⟨rfl, asmWord_of_toNat ?ldrot, asmWord_of_toNat ?ldoff, asmWord_of_toNat ?ldref, asmWord_of_toNat ?ldpan,
    rfl, asmWord_of_toNat ?encb, rfl, asmWord_of_toNat ?enc, rfl, asmWord_of_toNat ?rdctr, asmWord_of_toNat ?rdrot⟩
  all_goals
    intro hrange
    simp (disch := omega) only [encode, BitVec.toNat_append, BitVec.toNat_ofNat, Nat.mod_eq_of_lt,
      Nat.shiftLeft_or_distrib, ← Nat.shiftLeft_add]
    simp

/-! ## Pseudo-commands -/

/-- Lines that each assemble to one word assemble to these words, in order. -/
theorem mapM_assembleCommand_map {α : Type} {line : α → AsmLine} {word : α → CmdWord}
    (h : ∀ x, assembleCommand (line x) = some (word x)) (xs : List α) :
    (xs.map line).mapM assembleCommand = some (xs.map word) := by
  induction xs with
  | nil => rfl
  | cons x xs ih => simp [h x, ih]

theorem assembleLine_of_expandLine {α : Type} {l : AsmLine} {xs : List α} {line : α → AsmLine}
    {word : α → CmdWord} (hl : expandLine l = some (xs.map line)) (h : ∀ x, assembleCommand (line x) = some (word x)) :
    assembleLine l = some (xs.map word) := by
  rw [assembleLine, hl, Option.bind_eq_bind, Option.bind_some, mapM_assembleCommand_map h]

/-- R58: a table's loads, one for each index, ascending. -/
theorem tableLoads_table (load : Nat → Nat → AsmLine) (t : Table) :
    tableLoads load (t.toList.map BitVec.toNat) =
      some ((List.finRange 16).map fun i : Fin 16 => load i t[i].toNat) := by
  have hloads : (t.toList.map BitVec.toNat).zipIdx.map (fun p => load p.2 p.1) =
      (List.finRange 16).map fun i : Fin 16 => load i t[i].toNat := by
    apply List.ext_getElem <;> simp
  simp only [tableLoads, List.length_map, Vector.length_toList, if_true, hloads]

theorem ofNat_toNat_self {n : Nat} (x : BitVec n) : BitVec.ofNat n x.toNat = x := by simp

theorem ofNat_val (i : Fin 16) : BitVec.ofNat 4 i = .ofFin i := BitVec.eq_of_toNat_eq (by simp)

/-- Settles O7: each line's expansion is a list of command lines with operands in range, assembled one by one. -/
theorem pseudoCommandsExpand : Obligations.PseudoCommandsExpand := by
  refine ⟨fun k t => ?ldrott, fun t => ?ldreft, fun t => ?ldpant, fun bytes => ?encs, fun n => ?stepn⟩
  case ldrott =>
    refine assembleLine_of_expandLine (tableLoads_table _ t) fun i => ?_
    obtain ⟨-, hload, -⟩ := assemblerEncodesOrRejects k.toNat i t[i].toNat 0 0
    rw [hload, if_pos (by omega), ofNat_toNat_self, ofNat_toNat_self, ofNat_val]
  case ldreft =>
    refine assembleLine_of_expandLine (tableLoads_table _ t) fun i => ?_
    obtain ⟨-, -, -, hload, -⟩ := assemblerEncodesOrRejects 0 i t[i].toNat 0 0
    rw [hload, if_pos (by omega), ofNat_toNat_self, ofNat_val]
  case ldpant =>
    refine assembleLine_of_expandLine (tableLoads_table _ t) fun i => ?_
    obtain ⟨-, -, -, -, hload, -⟩ := assemblerEncodesOrRejects 0 i t[i].toNat 0 0
    rw [hload, if_pos (by omega), ofNat_toNat_self, ofNat_val]
  case encs =>
    refine assembleLine_of_expandLine (congrArg some List.map_map) fun d => ?_
    obtain ⟨-, -, -, -, -, -, -, -, henc, -⟩ := assemblerEncodesOrRejects 0 0 0 d.toNat 0
    rw [Function.comp_apply, henc, if_pos (by omega), ofNat_toNat_self]
  case stepn =>
    have hexpand : expandLine (.stepn n) = some ((List.replicate n ()).map fun _ => .step) := by
      rw [List.map_replicate]; rfl
    have hstep : ∀ _ : Unit, assembleCommand .step = some (encode .step) := fun _ => rfl
    rw [assembleLine_of_expandLine hexpand hstep, List.map_replicate]

end Sys2Proof.Machine
end

/-! Proofs: everything a command can do, and what follows for the sticky record, the live state, READY and the
configuration (10_state.md R10, R15, R20; 60_exceptions.md R130 to R137). -/

section
namespace Sys2Proof.Machine

variable {N : Nat}

/-! ## Response words (30_encoding.md R50) -/

/-- Settles O13: the fields of each kind of word are computed for every data byte, code and info value. -/
theorem responseWordFields : Obligations.ResponseWordFields := by
  constructor
  · decide
  · intro code info
    revert info
    cases code <;> decide

theorem responseOk_dataResponse (d : Byte) : ResponseOk (dataResponse d) := by
  obtain ⟨hrefused, hcode, hbit, hinfo, -⟩ := responseWordFields.1 d
  exact ⟨hbit, by simp [hcode], by simp [hrefused, hcode], by simp [hrefused], fun _ => hinfo⟩

theorem responseOk_refuseResponse (c : RefuseCode) (info : BitVec 3) : ResponseOk (refuseResponse c info) := by
  obtain ⟨hrefused, hcode, hbit, -, hdata, hne0, hne7⟩ := responseWordFields.2 c info
  exact ⟨hbit, by rwa [hcode], iff_of_true hrefused (by rwa [hcode]), fun _ => hdata, by simp [hrefused]⟩

theorem refuseResponse_illegalCmd : refuseResponse .illegalCmd 0#3 = 0x9000 := by decide

theorem refuseResponse_notReady : refuseResponse .notReady 0#3 = 0xA000 := by decide

theorem toNat_refuseResponse (c : RefuseCode) (info : BitVec 3) :
    (refuseResponse c info).toNat = 0x8000 + c.bits.toNat * 0x1000 + info.toNat * 0x100 := by
  simp only [refuseResponse, toNat_append_eq_add]
  simp
  omega

/-! ## Refusals -/

/-- R130: an info value that a refusal can carry. It is a rotor number for a rotor table, and 0 else. -/
def RefusalOk (N : Nat) (c : RefuseCode) (info : BitVec 3) : Prop :=
  (c = .badRotorTable → info.toNat < N) ∧ (c ≠ .badRotorTable → info = 0)

theorem refusalOk_zero {c : RefuseCode} (h : c ≠ .badRotorTable) : RefusalOk N c 0 :=
  ⟨fun hc => absurd hc h, fun _ => rfl⟩

theorem RefuseCode.bits_eq_three_iff {c : RefuseCode} : c.bits = 3 ↔ c = .badRotorTable := by
  cases c <;> decide

/-- R132: a refusal with a legal info value leaves a legal sticky record. -/
theorem Engine.RecordOk.recordRefusal {e : Engine N} (h : e.RecordOk) {c : RefuseCode} {info : BitVec 3}
    (hc : RefusalOk N c info) : (e.recordRefusal c info).RecordOk := by
  cases herr : e.err with
  | true => simpa [Engine.recordRefusal, herr] using h
  | false =>
    obtain ⟨-, -, -, -, -, hne0, hne7⟩ := responseWordFields.2 c info
    obtain ⟨hrotor, hother⟩ := hc
    refine ⟨by simp, fun _ => ?_⟩
    simp only [Engine.recordRefusal_errCode, Engine.recordRefusal_errInfo, herr, Bool.false_eq_true, if_false]
    exact ⟨hne0, hne7, fun h3 => hother (mt RefuseCode.bits_eq_three_iff.2 h3),
      fun h3 => hrotor (RefuseCode.bits_eq_three_iff.1 h3)⟩

/-- R89: a check of INIT that fails carries a rotor number exactly when it is a rotor's. -/
theorem Engine.refusalOk_of_initFailure {e : Engine N} {c : RefuseCode} {info : BitVec 3}
    (h : e.initFailure = some (c, info)) : RefusalOk N c info := by
  cases hb : e.badRotor with
  | some k =>
    obtain ⟨rfl, rfl⟩ : .badRotorTable = c ∧ BitVec.ofNat 3 k = info := by
      simpa [Engine.initFailure_of_badRotor hb] using h
    exact ⟨fun _ => lt_of_le_of_lt (by simpa using Nat.mod_le k 8) k.isLt, fun hne => absurd rfl hne⟩
  | none =>
    rw [Engine.initFailure_of_rotors (Engine.badRotor_none.1 hb)] at h
    split at h
    · obtain ⟨rfl, rfl⟩ : .badReflectorTable = c ∧ 0 = info := by simpa using h
      exact refusalOk_zero (by decide)
    · split at h
      · obtain ⟨rfl, rfl⟩ : .badReflectorPairing = c ∧ 0 = info := by simpa using h
        exact refusalOk_zero (by decide)
      · split at h
        · obtain ⟨rfl, rfl⟩ : .badPanelTable = c ∧ 0 = info := by simpa using h
          exact refusalOk_zero (by decide)
        · simp at h

/-! ## Everything a command can do -/

/-- The engine after a command and its response word, case by case. -/
inductive CommandEffect (e : Engine N) : Instr → Engine N × RspWord → Prop
  | answers (i : Instr) (d : Byte) : CommandEffect e i (e, dataResponse d)
  | refuses (i : Instr) (c : RefuseCode) (hc : c = .illegalCmd ∨ c = .notReady) :
      CommandEffect e i (e.recordRefusal c 0, refuseResponse c 0)
  | setsRot (k : BitVec 3) (i v : Nibble) (hk : k.toNat < N) :
      CommandEffect e (.ldrot k i v) (e.setCfgRot ⟨k.toNat, hk⟩ i v, dataResponse 0)
  | setsOff (k : BitVec 3) (v : Nibble) (hk : k.toNat < N) :
      CommandEffect e (.ldoff k v) (e.setCfgOff ⟨k.toNat, hk⟩ v, dataResponse 0)
  | setsRef (i v : Nibble) : CommandEffect e (.ldref i v) (e.setCfgRef i v, dataResponse 0)
  | setsPan (i v : Nibble) : CommandEffect e (.ldpan i v) (e.setCfgPan i v, dataResponse 0)
  | initFails (c : RefuseCode) (info : BitVec 3) (h : e.initFailure = some (c, info)) :
      CommandEffect e .init ({ e with ready := false }.recordRefusal c info, refuseResponse c info)
  | constructs (h : e.ConfigOk) : CommandEffect e .init (e.construct, dataResponse 0)
  | steps (i : Instr) (d : Byte) (hi : i = .step ∨ ∃ d, i = .enc d) (hready : e.ready = true) :
      CommandEffect e i (e.stepRotors, dataResponse d)

theorem Engine.command_effect (i : Instr) (e : Engine N) : CommandEffect e i (e.command i) := by
  cases i with
  | nop => exact .answers _ 0
  | ldrot k i v =>
    obtain ⟨hk, h⟩ | ⟨-, h⟩ := Engine.ldrot_cases k i v e <;> rw [Engine.command, h]
    · exact .setsRot k i v hk
    · exact .refuses _ _ (.inl rfl)
  | ldoff k v =>
    obtain ⟨hk, h⟩ | ⟨-, h⟩ := Engine.ldoff_cases k v e <;> rw [Engine.command, h]
    · exact .setsOff k v hk
    · exact .refuses _ _ (.inl rfl)
  | ldref i v => exact .setsRef i v
  | ldpan i v => exact .setsPan i v
  | init =>
    obtain ⟨c, info, hfail, h⟩ | ⟨hok, h⟩ := Engine.init_cases e <;> rw [Engine.command, h]
    · exact .initFails c info hfail
    · exact .constructs (Engine.initFailure_none.1 hok)
  | encb d =>
    obtain ⟨-, h⟩ | ⟨-, h⟩ := Engine.encb_cases d e <;> rw [Engine.command, h]
    · exact .answers _ _
    · exact .refuses _ _ (.inr rfl)
  | step =>
    obtain ⟨hready, h⟩ | ⟨-, h⟩ := Engine.stepOnce_cases e <;> rw [Engine.command, h]
    · exact .steps _ _ (.inl rfl) hready
    · exact .refuses _ _ (.inr rfl)
  | enc d =>
    obtain ⟨hready, h⟩ | ⟨-, h⟩ := Engine.enc_cases d e <;> rw [Engine.command, h]
    · exact .steps _ _ (.inr ⟨d, rfl⟩) hready
    · exact .refuses _ _ (.inr rfl)
  | rdst => exact .answers _ _
  | rdctr b => exact .answers _ _
  | rdrot k i =>
    obtain ⟨_, -, h⟩ | ⟨-, -, h⟩ | ⟨-, h⟩ := Engine.rdrot_cases k i e <;> rw [Engine.command, h]
    · exact .answers _ _
    · exact .refuses _ _ (.inr rfl)
    · exact .refuses _ _ (.inl rfl)

/-- The record and the response of a command: it completes and keeps the record, or it is refused with the code
that the record takes if it is free (R131, R132). -/
theorem CommandEffect.record_cases {e : Engine N} {i : Instr} {p : Engine N × RspWord} (h : CommandEffect e i p) :
    (∃ d, p.2 = dataResponse d ∧ p.1.SameRecord e) ∨
    (∃ c info, RefusalOk N c info ∧ p.2 = refuseResponse c info ∧ p.1.SameRecord (e.recordRefusal c info)) := by
  cases h with
  | answers | setsRot | setsOff | setsRef | setsPan | constructs | steps =>
    exact .inl ⟨_, rfl, by simp [Engine.SameRecord]⟩
  | refuses _ c hc =>
    exact .inr ⟨c, 0, refusalOk_zero (by rcases hc with rfl | rfl <;> decide), rfl, rfl, rfl, rfl⟩
  | initFails c info hfail =>
    exact .inr ⟨c, info, Engine.refusalOk_of_initFailure hfail, rfl, by simp [Engine.SameRecord]⟩

/-- R113: commands other than INIT, STEP and ENC touch neither the live state nor READY. -/
theorem CommandEffect.keeps_live {e : Engine N} {i : Instr} {p : Engine N × RspWord} (h : CommandEffect e i p)
    (hinit : i ≠ .init) (hstep : i ≠ .step) (henc : ∀ d, i ≠ .enc d) :
    p.1.SameLive e ∧ p.1.ready = e.ready := by
  cases h with
  | answers | refuses | setsRot | setsOff | setsRef | setsPan => simp [Engine.SameLive]
  | constructs => exact absurd rfl hinit
  | initFails => exact absurd rfl hinit
  | steps _ _ hi =>
    rcases hi with rfl | ⟨d, rfl⟩
    · exact absurd rfl hstep
    · exact absurd rfl (henc d)

/-! ## The invariant (10_state.md R15, 60_exceptions.md R132) -/

/-- READY = 1 goes with legal live tables: only INIT sets it, with tables it has checked, and only a stepping
event changes the tables after that. -/
theorem CommandEffect.liveOk_of_ready {e : Engine N} {i : Instr} {p : Engine N × RspWord}
    (h : CommandEffect e i p) (he : e.ready = true → e.LiveOk) : p.1.ready = true → p.1.LiveOk := by
  cases h with
  | answers => exact he
  | refuses | setsRot | setsOff | setsRef | setsPan => simpa [Engine.LiveOk] using he
  | constructs hok => exact fun _ => hok.construct_liveOk
  | initFails => simp
  | steps => exact fun hready => (he hready).stepRotors

theorem Engine.RecordOk.of_sameRecord {a b : Engine N} (h : a.SameRecord b) (hb : b.RecordOk) : a.RecordOk := by
  obtain ⟨herr, hcode, hinfo⟩ := h
  rwa [Engine.RecordOk, herr, hcode, hinfo]

theorem Engine.Inv.command {e : Engine N} (h : e.Inv) (i : Instr) :
    (e.command i).1.Inv ∧ ResponseOk (e.command i).2 := by
  obtain ⟨hlive, hrec⟩ := h
  have heff := e.command_effect i
  obtain ⟨d, hresp, hsame⟩ | ⟨c, info, hc, hresp, hsame⟩ := heff.record_cases
  · exact ⟨⟨heff.liveOk_of_ready hlive, .of_sameRecord hsame hrec⟩, hresp ▸ responseOk_dataResponse d⟩
  · exact ⟨⟨heff.liveOk_of_ready hlive, .of_sameRecord hsame (hrec.recordRefusal hc)⟩,
      hresp ▸ responseOk_refuseResponse c info⟩

/-- An accepted word is a command's, or it is refused like one. -/
theorem Engine.Inv.accept {e : Engine N} (h : e.Inv) (w : CmdWord) :
    (e.accept w).1.Inv ∧ ResponseOk (e.accept w).2 := by
  unfold Engine.accept
  split
  · exact h.command _
  · obtain ⟨hlive, hrec⟩ := h
    exact ⟨⟨(CommandEffect.refuses .nop .illegalCmd (.inl rfl)).liveOk_of_ready hlive,
      hrec.recordRefusal (refusalOk_zero (by decide))⟩, responseOk_refuseResponse _ _⟩

theorem Engine.reset_inv : (Engine.reset N).Inv := by
  refine ⟨by simp [Engine.reset], ?_⟩
  simp [Engine.reset, Engine.RecordOk]

/-! ## INIT (R89 to R92) -/

/-- READY = 1 after INIT says that the checks passed. -/
theorem Engine.configOk_of_init_ready {e : Engine N} (h : (e.init).1.ready = true) : e.ConfigOk := by
  obtain ⟨c, info, -, hinit⟩ | ⟨hok, -⟩ := Engine.init_cases e
  · simp [hinit] at h
  · exact Engine.initFailure_none.1 hok

theorem Engine.SameConfig.symm {a b : Engine N} (h : a.SameConfig b) : b.SameConfig a := by
  obtain ⟨hrot, hoff, href, hpan⟩ := h
  exact ⟨hrot.symm, hoff.symm, href.symm, hpan.symm⟩

/-! ## The command's effect on the whole state -/

theorem exec_eq (i : Instr) (s : State) :
    exec i s = .next (s.answered (s.engine.command i).1 (s.engine.command i).2) := by
  rw [exec_eq_transact, transact_eq]

theorem exec_next {i : Instr} {s t : State} (h : exec i s = .next t) :
    t = s.answered (s.engine.command i).1 (s.engine.command i).2 :=
  transact_next ((exec_eq_transact i s).symm.trans h)

theorem exec_of_refuse {i : Instr} {s : State} {c : RefuseCode} {info : BitVec 3}
    (h : s.engine.command i = s.engine.refuse c info) :
    exec i s = .next (s.answered (s.engine.recordRefusal c info) (refuseResponse c info)) := by
  rw [exec_eq, h, Engine.refuse_engine, Engine.refuse_response]

theorem Engine.withRotor_of_le {k : BitVec 3} (h : N ≤ k.toNat) (f : Fin N → Engine N → Engine N × RspWord)
    (e : Engine N) : Engine.withRotor k f e = e.refuse .illegalCmd 0#3 := by
  simp [Engine.withRotor, rotorIndex_of_le h]

theorem Engine.withRotor_of_lt {k : BitVec 3} (h : k.toNat < N) (f : Fin N → Engine N → Engine N × RspWord)
    (e : Engine N) : Engine.withRotor k f e = f ⟨k.toNat, h⟩ e := by
  simp [Engine.withRotor, rotorIndex_of_lt h]

/-! ## The obligations -/

/-- Settles O16: READY and ERR are 0 and nothing has been answered. -/
theorem invariantHoldsAtReset : Obligations.InvariantHoldsAtReset :=
  ⟨Engine.reset_inv, fun _ hr => absurd hr List.not_mem_nil⟩

/-- Settles O17: idling changes nothing, a reset gives the reset engine, and an accepted word keeps the engine's
invariant and adds one legal response word. -/
theorem everyStepKeepsTheInvariant : Obligations.EveryStepKeepsTheInvariant := by
  intro s t hinv hstep
  obtain ⟨hengine, hresponses⟩ := hinv
  obtain ⟨-, h⟩ | ⟨rest, -, h⟩ | ⟨w, rest, -, h⟩ := step_cases s <;> rw [h] at hstep
  · obtain rfl : s = t := by simpa using hstep
    exact ⟨hengine, hresponses⟩
  · obtain rfl : resetEngine { s with pending := rest } = t := by simpa using hstep
    exact ⟨Engine.reset_inv, hresponses⟩
  · obtain ⟨hinv', hresp⟩ := hengine.accept w
    rw [transact_next hstep]
    exact ⟨hinv', List.forall_mem_append.2 ⟨hresponses, List.forall_mem_singleton.2 hresp⟩⟩

/-- Settles O18: the record is written when it is free, and the word's fields are read as numbers. -/
theorem refusalRecordsOnlyTheFirst : Obligations.RefusalRecordsOnlyTheFirst := by
  intro N e c info
  exact ⟨fun herr => by simp [Engine.recordRefusal, herr], fun herr => by simp [Engine.recordRefusal, herr],
    toNat_refuseResponse c info⟩

/-- Settles O19: a command that completes keeps the record, and a refusal does not overwrite it. -/
theorem noCommandChangesARecordedError : Obligations.NoCommandChangesARecordedError := by
  intro i s herr
  refine ⟨_, exec_eq i s, ?_⟩
  obtain ⟨d, -, hsame⟩ | ⟨c, info, -, -, hsame⟩ := (s.engine.command_effect i).record_cases
  · obtain ⟨herr', hcode, hinfo⟩ := hsame
    exact ⟨herr'.trans herr, hcode, hinfo⟩
  · obtain ⟨herr', hcode, hinfo⟩ := hsame
    exact ⟨by simpa using herr', by simpa [herr] using hcode, by simpa [herr] using hinfo⟩

/-- Settles O20: a command that completes keeps the record, and a refusal writes its own code and info to it. -/
theorem firstRefusalIsTheOneRecorded : Obligations.FirstRefusalIsTheOneRecorded := by
  intro i s herr
  refine ⟨_, _, exec_eq i s, rfl, ?_⟩
  obtain ⟨d, hresp, hsame⟩ | ⟨c, info, -, hresp, hsame⟩ := (s.engine.command_effect i).record_cases
  · obtain ⟨herr', hcode, hinfo⟩ := hsame
    obtain ⟨hrefused, -⟩ := responseWordFields.1 d
    rw [hresp, hrefused]
    exact ⟨herr'.trans herr, hcode, hinfo⟩
  · obtain ⟨herr', hcode, hinfo⟩ := hsame
    obtain ⟨hrefused, hcode', -, hinfo', -⟩ := responseWordFields.2 c info
    rw [hresp, hrefused, hcode', hinfo']
    exact ⟨by simpa using herr', by simpa [herr] using hcode, by simpa [herr] using hinfo⟩

/-- Settles O21: each of the four commands meets the READY gate, RDROT after its rotor number check. -/
theorem notReadyCommandsAreRefused : Obligations.NotReadyCommandsAreRefused := by
  intro s i hready hi
  have hrefuse : s.engine.command i = s.engine.refuse .notReady 0#3 := by
    rcases hi with ⟨d, rfl⟩ | rfl | ⟨d, rfl⟩ | ⟨k, j, rfl, hk⟩
    · rw [Engine.command, Engine.encb, Engine.whenReady_of_not_ready _ hready]
    · rw [Engine.command, Engine.stepOnce, Engine.whenReady_of_not_ready _ hready]
    · rw [Engine.command, Engine.enc, Engine.whenReady_of_not_ready _ hready]
    · rw [Engine.command, Engine.rdrot, Engine.withRotor_of_lt hk, Engine.whenReady_of_not_ready _ hready]
  rw [exec_of_refuse hrefuse, refuseResponse_notReady]
  rfl

/-- Settles O22: the three commands with a rotor number check it before anything else. -/
theorem rotorNumberOutOfRangeIsRefused : Obligations.RotorNumberOutOfRangeIsRefused := by
  intro s k i hk hi
  have hrefuse : s.engine.command i = s.engine.refuse .illegalCmd 0#3 := by
    rcases hi with ⟨j, v, rfl⟩ | ⟨v, rfl⟩ | ⟨j, rfl⟩ <;>
      simp only [Engine.command, Engine.ldrot, Engine.ldoff, Engine.rdrot, Engine.withRotor_of_le hk]
  rw [exec_of_refuse hrefuse, refuseResponse_illegalCmd]
  rfl

/-- Settles O28: READY = 1 means that the checks passed, and a legal configuration gives legal tables. -/
theorem successfulInitGivesLegalTables : Obligations.SuccessfulInitGivesLegalTables := by
  intro N e hready
  have hok := Engine.configOk_of_init_ready hready
  rw [Engine.init_of_configOk hok]
  exact ⟨hok.construct_liveOk, rfl⟩

/-- Settles O29: the checks and the construction read nothing but the configuration. -/
theorem initForgetsThePast : Obligations.InitForgetsThePast := by
  intro N a b hsame hready
  have hok := Engine.configOk_of_init_ready hready
  rw [Engine.init_of_configOk hok, Engine.init_of_configOk (hsame.symm.configOk hok)]
  exact ⟨rfl, hsame.construct_sameLive⟩

/-- Settles O30: what each case of a command's effect changes. -/
theorem eachElementHasItsWriters : Obligations.EachElementHasItsWriters := by
  intro i s t h
  rw [exec_next h]
  have heff := s.engine.command_effect i
  generalize s.engine.command i = p at heff
  cases heff with
  | answers | refuses | setsRot | setsOff | setsRef | setsPan | initFails | constructs => simp
  | steps _ _ hi => simp [hi]

/-- Settles O31: every case of a command's effect but the two of INIT keeps READY. -/
theorem onlyInitChangesReady : Obligations.OnlyInitChangesReady := by
  intro i s t h
  rw [exec_next h]
  have heff := s.engine.command_effect i
  generalize s.engine.command i = p at heff
  cases heff with
  | answers | refuses | setsRot | setsOff | setsRef | setsPan | steps => simp_all
  | constructs hok => exact ⟨fun _ _ => ⟨rfl, hok⟩, by simp⟩
  | initFails c info hfail =>
    refine ⟨by simp, fun _ _ => ⟨rfl, fun hok => ?_⟩⟩
    simp [Engine.initFailure_none.2 hok] at hfail

/-- Settles O54: every case of a command's effect but those of INIT, STEP and ENC keeps the live state. -/
theorem otherCommandsKeepTheLiveState : Obligations.OtherCommandsKeepTheLiveState :=
  fun _ e i => (e.command_effect i).keeps_live

end Sys2Proof.Machine
end

/-! Proofs: what each command that completes writes and answers (41_config_and_init.md R85 to R88,
42_encipher_datapath.md R102, 43_rotor_stepper.md R111, R112, 44_status_readback.md R122, R123). -/

section
namespace Sys2Proof.Machine

variable {N : Nat}

/-! ## Completing -/

theorem exec_of_completes {i : Instr} {s : State} {e : Engine Config.nRotors} {d : Byte}
    (h : s.engine.command i = e.respond d) : exec i s = .next (s.answered e (dataResponse d)) := by
  rw [exec_eq, h, Engine.respond_engine, Engine.respond_response]

theorem Engine.encb_of_ready {e : Engine N} (h : e.ready = true) (d : Byte) :
    e.encb d = e.respond (e.encipherByte d) :=
  Engine.whenReady_of_ready (fun e => e.respond (e.encipherByte d)) h

theorem Engine.stepOnce_of_ready {e : Engine N} (h : e.ready = true) : e.stepOnce = e.stepRotors.respond 0#8 :=
  Engine.whenReady_of_ready (fun e => e.stepRotors.respond 0#8) h

theorem Engine.rdrot_of_ready {e : Engine N} (h : e.ready = true) {k : BitVec 3} (hk : k.toNat < N) (i : Nibble) :
    e.rdrot k i = e.respond (e.rotByte ⟨k.toNat, hk⟩ i) := by
  rw [Engine.rdrot, Engine.withRotor_of_lt hk, Engine.whenReady_of_ready _ h]

/-! ## The cell a load writes -/

theorem Engine.setCfgRot_cfgRot_self (e : Engine N) (k : Fin N) (i v : Nibble) :
    (e.setCfgRot k i v).cfgRot[k] = setCell e.cfgRot[k] i v := by
  simp

theorem Engine.setCfgRot_cfgRot_of_ne (e : Engine N) {k k' : Fin N} (h : k' ≠ k) (i v : Nibble) :
    (e.setCfgRot k i v).cfgRot[k'] = e.cfgRot[k'] := by
  simpa using Vector.getElem_set_ne k.isLt k'.isLt (Fin.val_ne_of_ne h.symm)

theorem Engine.setCfgOff_cfgOff_self (e : Engine N) (k : Fin N) (v : Nibble) : (e.setCfgOff k v).cfgOff[k] = v := by
  simp

theorem Engine.setCfgOff_cfgOff_of_ne (e : Engine N) {k k' : Fin N} (h : k' ≠ k) (v : Nibble) :
    (e.setCfgOff k v).cfgOff[k'] = e.cfgOff[k'] := by
  simpa using Vector.getElem_set_ne k.isLt k'.isLt (Fin.val_ne_of_ne h.symm)

/-! ## Words as numbers -/

/-- R33: byte `b` of a word counts in units of `256 ^ b`. -/
theorem Engine.toNat_ctrByte (e : Engine N) (b : BitVec 2) :
    (e.ctrByte b).toNat = e.ctr.toNat / 256 ^ b.toNat % 256 := by
  have hpow : 256 ^ b.toNat = 2 ^ (8 * b.toNat) := by rw [pow_mul]; norm_num
  rw [Engine.ctrByte, BitVec.extractLsb'_toNat, Nat.shiftRight_eq_div_pow, hpow]

theorem Engine.toNat_rotByte (e : Engine N) (k : Fin N) (i : Nibble) :
    (e.rotByte k i).toNat = (rotorBackward e.rot[k] i).toNat := by
  rw [Engine.rotByte, toNat_append_eq_add, rotorBackward_eq_cell]
  simp

/-- R32: a byte is 16 times its high nibble plus its low nibble. -/
theorem toNat_joinNibbles (p q : Nibble) : (joinNibbles p q).toNat = 16 * p.toNat + q.toNat := by
  rw [joinNibbles, toNat_append_eq_add]
  omega

theorem highNibble_eq (d : Byte) : highNibble d = .ofNat 4 (d.toNat / 16) := by
  revert d; decide

theorem lowNibble_eq (d : Byte) : lowNibble d = .ofNat 4 (d.toNat % 16) := by
  revert d; decide

/-! ## The obligations -/

/-- Settles O24: the rotor named is the table whose one cell is written; the other tables are not set. -/
theorem ldrotWritesOneCell : Obligations.LdrotWritesOneCell := by
  intro s k kf i v hk
  have hlt : kf.toNat < Config.nRotors := hk ▸ k.isLt
  obtain rfl : k = ⟨kf.toNat, hlt⟩ := Fin.ext hk.symm
  have hcommand : s.engine.command (.ldrot kf i v) = (s.engine.setCfgRot ⟨kf.toNat, hlt⟩ i v).respond 0#8 :=
    Engine.withRotor_of_lt hlt (fun k e => (e.setCfgRot k i v).respond 0#8) s.engine
  refine ⟨_, exec_of_completes hcommand, ?_, fun j hj => ?_, fun k' hk' => ?_, rfl, rfl, rfl⟩
  · rw [Engine.setCfgRot_cfgRot_self, cell_setCell_self]
  · rw [Engine.setCfgRot_cfgRot_self, cell_setCell_of_ne _ _ hj]
  · exact Engine.setCfgRot_cfgRot_of_ne _ hk' i v

/-- Settles O25: the offset named is the one that is set. -/
theorem ldoffWritesOneOffset : Obligations.LdoffWritesOneOffset := by
  intro s k kf v hk
  have hlt : kf.toNat < Config.nRotors := hk ▸ k.isLt
  obtain rfl : k = ⟨kf.toNat, hlt⟩ := Fin.ext hk.symm
  have hcommand : s.engine.command (.ldoff kf v) = (s.engine.setCfgOff ⟨kf.toNat, hlt⟩ v).respond 0#8 :=
    Engine.withRotor_of_lt hlt (fun k e => (e.setCfgOff k v).respond 0#8) s.engine
  exact ⟨_, exec_of_completes hcommand, Engine.setCfgOff_cfgOff_self _ _ v,
    fun k' hk' => Engine.setCfgOff_cfgOff_of_ne _ hk' v, rfl, rfl, rfl⟩

/-- Settles O26: one cell of the table is written. -/
theorem ldrefAndLdpanWriteOneCell : Obligations.LdrefAndLdpanWriteOneCell := by
  intro s i v
  constructor
  · have hcommand : s.engine.command (.ldref i v) = (s.engine.setCfgRef i v).respond 0#8 := rfl
    refine ⟨_, exec_of_completes hcommand, ?_, fun j hj => ?_, ?_, rfl, rfl⟩
    · rw [Engine.setCfgRef_cfgRef, cell_setCell_self]
    · rw [Engine.setCfgRef_cfgRef, cell_setCell_of_ne _ _ hj]
    · rw [Engine.setCfgRef]
  · have hcommand : s.engine.command (.ldpan i v) = (s.engine.setCfgPan i v).respond 0#8 := rfl
    refine ⟨_, exec_of_completes hcommand, ?_, fun j hj => ?_, ?_, rfl, rfl⟩
    · rw [Engine.setCfgPan_cfgPan, cell_setCell_self]
    · rw [Engine.setCfgPan_cfgPan, cell_setCell_of_ne _ _ hj]
    · rw [Engine.setCfgPan]

/-- Settles O42: the folds over the three rotors, written out. -/
theorem nibbleChainForThreeRotors : Obligations.NibbleChainForThreeRotors := by
  intro e x
  have hrot : e.rot.toList = [e.rot[0], e.rot[1], e.rot[2]] := by
    apply List.ext_getElem
    · simp
    · intro k hk _
      have hk : k < 3 := by simpa using hk
      interval_cases k <;> simp
  simp [Engine.encipherNibble, rotorsForward, rotorsBackward, hrot]

/-- Settles O43: both nibbles go through the same chain and are put together again. -/
theorem nibblesDoNotInteract : Obligations.NibblesDoNotInteract := by
  intro N e d
  rw [Engine.encipherByte, toNat_joinNibbles, highNibble_eq, lowNibble_eq]

/-- Settles O44: with READY = 1 the gate lets ENCB answer. -/
theorem encbAnswersAndChangesNothing : Obligations.EncbAnswersAndChangesNothing :=
  fun _ d hready => exec_of_respond (Engine.encb_of_ready hready d)

/-- Settles O48: with READY = 1 the gate lets STEP step; at the wrap the new counter is 0, a multiple of every
power of 16. -/
theorem stepCommandSteps : Obligations.StepCommandSteps := by
  intro s hready
  have hcommand : s.engine.command .step = s.engine.stepRotors.respond 0#8 := Engine.stepOnce_of_ready hready
  refine ⟨exec_of_completes hcommand, fun hctr => ?_⟩
  have hzero : s.engine.stepRotors.ctr = 0 := by rw [Engine.stepRotors_ctr, hctr]; rfl
  refine ⟨hzero, fun k => ?_⟩
  rw [Engine.stepRotors_rot_getElem, hzero]
  exact if_pos (Nat.zero_mod _)

/-- Settles O49: with READY = 1 each of the three commands passes the gate, and their effects are compared. -/
theorem encEnciphersThenSteps : Obligations.EncEnciphersThenSteps := by
  intro s d hready
  have henc : s.engine.command (.enc d) = s.engine.stepRotors.respond (s.engine.encipherByte d) :=
    Engine.enc_of_ready hready d
  have hencb : s.engine.command (.encb d) = s.engine.respond (s.engine.encipherByte d) :=
    Engine.encb_of_ready hready d
  have hstep : s.engine.command .step = s.engine.stepRotors.respond 0#8 := Engine.stepOnce_of_ready hready
  refine ⟨exec_of_completes henc, ?_, ?_⟩
  · rw [hencb, Engine.respond_engine, hstep, henc, Engine.respond_engine, Engine.respond_engine]
  · rw [hencb, henc, Engine.respond_response, Engine.respond_response]

/-- Settles O59: the byte extracted is the counter shifted down, modulo 256. -/
theorem rdctrAnswersOneByte : Obligations.RdctrAnswersOneByte := by
  intro s b
  refine ⟨_, exec_of_respond rfl, ?_⟩
  rw [toNat_dataResponse, Engine.toNat_ctrByte]

/-- Settles O60: with a legal rotor number and READY = 1 both checks pass, and the cell is zero-extended. -/
theorem rdrotAnswersOneCell : Obligations.RdrotAnswersOneCell := by
  intro s k kf i hready hk
  have hlt : kf.toNat < Config.nRotors := hk ▸ k.isLt
  obtain rfl : k = ⟨kf.toNat, hlt⟩ := Fin.ext hk.symm
  refine ⟨_, exec_of_respond (Engine.rdrot_of_ready hready hlt i), ?_⟩
  rw [toNat_dataResponse, Engine.toNat_rotByte]

end Sys2Proof.Machine
end

/-! Proofs: where a look-up finds a symbol, and what that says of the rotation, the panel and the reflector
(40_permutation_lut.md R66 to R77). -/

section
namespace Sys2Proof.Machine

/-! ## Look-ups -/

theorem alphabet_getElem_toNat (i : Nibble) (h : i.toNat < Config.alphabet.length) :
    Config.alphabet[i.toNat] = i := by
  revert i; decide

/-- R66: the search runs through the indices in ascending order. -/
theorem pos_eq_some_iff {T : Table} {v i : Nibble} :
    pos T v = some i ↔ cell T i = v ∧ ∀ j, j < i → cell T j ≠ v := by
  rw [pos, List.find?_eq_some_iff_getElem]
  constructor
  · rintro ⟨hi, n, hn, rfl, hbefore⟩
    obtain ⟨k, rfl⟩ : ∃ k : Nibble, k.toNat = n := ⟨.ofFin ⟨n, hn⟩, rfl⟩
    rw [alphabet_getElem_toNat] at hi ⊢
    exact ⟨by simpa using hi, fun j hj => by simpa [alphabet_getElem_toNat] using hbefore j.toNat hj⟩
  · rintro ⟨hi, hbefore⟩
    refine ⟨by simpa using hi, i.toNat, i.isLt, alphabet_getElem_toNat i i.isLt, fun n hn => ?_⟩
    obtain ⟨j, rfl⟩ : ∃ j : Nibble, j.toNat = n := ⟨.ofFin ⟨n, hn.trans i.isLt⟩, rfl⟩
    simpa [alphabet_getElem_toNat] using hbefore j hn

/-- R66: the search fails exactly on a symbol that the table lacks. -/
theorem pos_eq_none_iff {T : Table} {v : Nibble} : pos T v = none ↔ ∀ i, cell T i ≠ v := by
  simp [pos]

/-- No index is its own neighbour. -/
theorem xor_one_ne (i : Nibble) : i ^^^ 1#4 ≠ i := by
  revert i; decide

/-! ## The rotation and the reflector -/

/-- R73: every symbol goes down by one index. -/
theorem cell_rotorRotate (W : Table) (i : Nibble) : cell (rotorRotate W) i = cell W (i + 1) := cell_rotl W 1 i

/-- R77: the contract makes the table a permutation, since an involution is injective. -/
theorem isPerm_of_isReflector {R : Table} (h : isReflector R = true) : isPerm R = true := by
  have hinvol : Function.Involutive (cell R) := fun x => ((isReflector_forall R).1 h x).1
  exact (isPerm_iff_injective R).2 hinvol.injective

/-! ## The obligations -/

/-- Settles O35: the alphabet is ascending, so the first index found is the least. -/
theorem posFindsTheLeastIndex : Obligations.PosFindsTheLeastIndex := by
  intro T v
  exact ⟨fun _ => pos_eq_some_iff, pos_eq_none_iff, fun _ => Iff.rfl, fun _ => rfl⟩

/-- Settles O38: the rotation reads each cell one index up; in a permutation the cell so found is the only one. -/
theorem rotateMovesEachSymbolDown : Obligations.RotateMovesEachSymbolDown := by
  intro W
  have hperm : isPerm (rotorRotate W) = true ↔ isPerm W = true := isPerm_rotl_iff W 1
  refine ⟨fun i => ?_, cell_rotorRotate W 15, fun h => ⟨hperm.2 h, fun v i hpos => ?_⟩⟩
  · rw [cell_rotorRotate, BitVec.ofNat_add]
    rfl
  · have hcell : cell (rotorRotate W) (i - 1) = v := by
      rw [cell_rotorRotate, sub_add_cancel, cell_of_pos hpos]
    rw [← hcell, pos_cell_of_isPerm (hperm.2 h)]

/-- Settles O40: the panel reads the pair swap of its table at the symbol's place, which is the neighbour's. -/
theorem panelExchangesNeighbours : Obligations.PanelExchangesNeighbours := by
  intro O
  refine ⟨fun P c habsent => ?_, fun h => ⟨fun j => ?_, fun c => ⟨commutate_pairswap_involutive h c, ?_⟩⟩⟩
  · have hnone : pos O c = none := pos_eq_none_iff.2 habsent
    rw [commutate, hnone]
  · rw [commutate_cell h, commutate_cell h]
    exact (pairswapLaws O).1 j
  · obtain ⟨i, rfl⟩ := ((isPerm_iff_bijective O).1 h).surjective c
    rw [commutate_cell h, cell_pairswap]
    exact fun hfixed => xor_one_ne i ((isPerm_iff_injective O).1 h hfixed)

/-- Settles O41: the reflector reads the static table at the neighbouring index, and an involution is injective. -/
theorem reflectorContract : Obligations.ReflectorContract := by
  refine ⟨cell_pairswap, fun S x => ?_, isReflector_forall, fun R => isPerm_of_isReflector, ?_⟩
  · rw [reflect, cell_pairswap]; rfl
  · decide

end Sys2Proof.Machine
end

/-! Proofs: the step and the host's queue, and the clocked ports below it (30_encoding.md R45, R46, R53;
70_reset_and_hazards.md R150, R151). -/

section
namespace Sys2Proof.Machine

variable {N : Nat}

/-! ## One step, by what the host presents -/

theorem step_of_idle {s : State} (h : s.pending = []) : step s = .next s := by
  simp [step, h, idle]

theorem step_of_reset {s : State} {rest : List HostEvent} (h : s.pending = .reset :: rest) :
    step s = .next (resetEngine { s with pending := rest }) := by
  simp [step, h]

theorem step_of_command {s : State} {w : CmdWord} {rest : List HostEvent} (h : s.pending = .command w :: rest) :
    step s = .next { engine := (s.engine.accept w).1, pending := rest,
                     responses := s.responses ++ [(s.engine.accept w).2] } := by
  obtain ⟨hnil, -⟩ | ⟨rest', hreset, -⟩ | ⟨w', rest', hcommand, hstep⟩ := step_cases s
  · simp [hnil] at h
  · simp [hreset] at h
  · obtain ⟨rfl, rfl⟩ : w' = w ∧ rest' = rest := by simpa [hcommand] using h
    rw [hstep, transact_eq]

/-- R54: a word that no command has for its own is refused. -/
theorem Engine.accept_of_not_encoded {w : CmdWord} (h : ∀ i, encode i ≠ w) (e : Engine N) :
    e.accept w = e.refuse .illegalCmd 0#3 := by
  obtain ⟨why, hwhy⟩ := exists_decode_eq_illegal_iff.2 h
  simp [Engine.accept, hwhy]

/-! ## Sequences of words -/

theorem core_run_succ {s t : State} (h : step s = .next t) (n : Nat) :
    Sys2Proof.core.run (n + 1) s = Sys2Proof.core.run n t := by
  have hcore : Sys2Proof.core.step s = .next t := h
  simp only [Host.Core.run, hcore]

@[simp] theorem Engine.length_session (ws : List CmdWord) (e : Engine N) : (e.session ws).2.length = ws.length := by
  induction ws generalizing e with
  | nil => rfl
  | cons w ws ih => simp [Engine.session, ih]

theorem Engine.session_append (ws vs : List CmdWord) (e : Engine N) :
    e.session (ws ++ vs) =
      (((e.session ws).1.session vs).1, (e.session ws).2 ++ ((e.session ws).1.session vs).2) := by
  induction ws generalizing e with
  | nil => rfl
  | cons w ws ih => simp [Engine.session, ih]

/-! ## The clocked ports -/

/-- Everything that a cycle without reset can do: nothing is answered, and what was in flight or is accepted now
is in flight after it; or the command in flight is done and answered (R46). -/
theorem Ported.cycle_cases (p : Ported N) {x : PortIn} (hx : x.rst = false) :
    ((p.outputs x).rsp = none ∧ (p.edge x).engine = p.engine ∧
      p.inFlight.toList ++ (p.accepted x).toList = (p.edge x).inFlight.toList) ∨
    (∃ w, p.inFlight = some w ∧ p.accepted x = none ∧ (p.outputs x).rsp = some (p.engine.accept w).2 ∧
      p.edge x = ⟨(p.engine.accept w).1, none⟩) := by
  obtain ⟨e, flight⟩ := p
  cases flight with
  | none => exact .inl (by simp [Ported.outputs, Ported.edge, hx])
  | some w =>
    cases hdone : x.done with
    | false => exact .inl (by simp [Ported.outputs, Ported.edge, Ported.accepted, hx, hdone])
    | true => exact .inr ⟨w, by simp [Ported.outputs, Ported.edge, Ported.accepted, hx, hdone]⟩

/-- Over cycles without reset, the words that were in flight or are accepted are those answered, followed by the
one still in flight; engine and responses are those of the transaction function on the words answered. -/
theorem Ported.cycles_eq_session (xs : List PortIn) (p : Ported N) (hxs : ∀ x ∈ xs, x.rst = false) :
    ∃ answered, p.inFlight.toList ++ Ported.acceptedWords xs p = answered ++ (Ported.after xs p).inFlight.toList ∧
      p.engine.session answered = ((Ported.after xs p).engine, Ported.responses xs p) := by
  induction xs generalizing p with
  | nil => exact ⟨[], by simp [Ported.acceptedWords, Ported.after], rfl⟩
  | cons x xs ih =>
    obtain ⟨hx, hxs⟩ := List.forall_mem_cons.1 hxs
    obtain ⟨answered, hwords, hsession⟩ := ih (p.edge x) hxs
    obtain ⟨hrsp, hengine, hflight⟩ | ⟨w, hflight, haccepted, hrsp, hedge⟩ := p.cycle_cases hx
    · refine ⟨answered, ?_, ?_⟩
      · rw [Ported.acceptedWords, ← List.append_assoc, hflight, hwords, Ported.after]
      · rw [← hengine, hsession, Ported.after, Ported.responses, hrsp, Option.toList_none, List.nil_append]
    · refine ⟨w :: answered, ?_, ?_⟩
      · rw [Ported.acceptedWords, hflight, haccepted, Ported.after, List.cons_append, ← hwords, hedge]
        rfl
      · rw [hedge] at hsession
        rw [Engine.session, hsession, Ported.after, Ported.responses, hrsp, hedge]
        rfl

/-! ## The obligations -/

/-- Settles O8: the host's event is the word, and the decoder names the command. -/
theorem stepRunsTheDecodedCommand : Obligations.StepRunsTheDecodedCommand := by
  intro s w rest i hpending hdecode
  simp only [step, hpending, hdecode]

/-- Settles O9: the word decodes to none, and is refused as an illegal command. -/
theorem undecodedWordIsRefused : Obligations.UndecodedWordIsRefused := by
  intro s w rest hpending hw
  rw [step_of_command hpending, Engine.accept_of_not_encoded hw, Engine.refuse_response, refuseResponse_illegalCmd]
  rfl

/-- Settles O10: in each case of a step. -/
theorem everyStepCompletes : Obligations.EveryStepCompletes := by
  intro s
  obtain ⟨h, hstep⟩ | ⟨rest, h, hstep⟩ | ⟨w, rest, h, hstep⟩ := step_cases s
  · exact ⟨s, hstep, by simp [h]⟩
  · exact ⟨_, hstep, by simp [h]⟩
  · exact ⟨_, hstep, by simp [h]⟩

/-- Settles O11: one step takes the first word, and the rest run on the state after it. -/
theorem queuedCommandsRunInOrder : Obligations.QueuedCommandsRunInOrder := by
  intro ws
  induction ws with
  | nil =>
    rintro rest s rfl
    simp [Host.Core.run, Engine.session]
  | cons w ws ih =>
    intro rest s hpending
    rw [List.length_cons, core_run_succ (step_of_command hpending), ih rest _ rfl, Engine.session]
    simp

/-- Settles O12: the accepted words are those answered and the one in flight, and the transaction function on the former
gives the engine and the responses. -/
theorem portsRunTransactions : Obligations.PortsRunTransactions := by
  refine fun N e xs => ⟨fun hxs => ?_, fun p x hx => ?_⟩
  · obtain ⟨answered, hwords, hsession⟩ := Ported.cycles_eq_session xs ⟨e, none⟩ hxs
    rw [Option.toList_none, List.nil_append] at hwords
    have hlength := congrArg (fun p => p.2.length) hsession
    simp only [Engine.length_session] at hlength
    refine ⟨?_, ?_, fun w hw => ?_, fun hnone => ?_⟩
    · rw [hwords, Engine.session_append, hsession]
      exact List.prefix_append _ _
    · rw [hwords, List.length_append, hlength]
    · rw [hwords, hw, Option.toList_some, List.getLast?_concat, List.dropLast_concat, hsession]
      exact ⟨rfl, rfl⟩
    · rw [hwords, hnone, Option.toList_none, List.append_nil, hsession]
  · simp [Ported.outputs, Ported.accepted, Ported.edge, hx]

/-- Settles O14: read off the reset state. -/
theorem resetValues : Obligations.ResetValues := by
  refine ⟨rfl, rfl, rfl, rfl, rfl, fun k i => ?_, fun k => ?_, cell_zeroTable, cell_zeroTable, by decide⟩
  · have hk : State.reset.engine.cfgRot[k] = zeroTable := by simp [State.reset, Engine.reset]
    rw [hk, cell_zeroTable]
    rfl
  · simp [State.reset, Engine.reset]

/-- Settles O15: the step gives the engine its reset state, whose values are those of R24. -/
theorem hostResetGivesTheResetValues : Obligations.HostResetGivesTheResetValues := by
  intro s rest hpending
  obtain ⟨hready, herr, hcode, hinfo, hctr, hrot, hoff, href, hpan, -⟩ := resetValues
  exact ⟨_, step_of_reset hpending, rfl, rfl, hready, herr, hcode, hinfo, hctr, hrot, hoff, href, hpan⟩

end Sys2Proof.Machine
end

/-! Proofs: configuration loads. They are not seen before the next INIT (20_memory.md R40), and loads of different
cells may be issued in either order (30_encoding.md R58, 70_reset_and_hazards.md R155). -/

section
namespace Sys2Proof.Machine

variable {N : Nat}

/-! ## Commands that read the live state only -/

/-- The two engines after a command hold the same live state, and the responses are the same. -/
def SameOutcome (p q : Engine N × RspWord) : Prop := p.2 = q.2 ∧ p.1.SameLive q.1

theorem Engine.SameLive.refuse {a b : Engine N} (h : a.SameLive b) (c : RefuseCode) (info : BitVec 3) :
    SameOutcome (a.refuse c info) (b.refuse c info) := by
  simpa [SameOutcome, Engine.SameLive] using h

theorem Engine.SameLive.whenReady {a b : Engine N} (h : a.SameLive b) (hready : a.ready = b.ready)
    {f : Engine N → Engine N × RspWord} (hf : SameOutcome (f a) (f b)) :
    SameOutcome (Engine.whenReady f a) (Engine.whenReady f b) := by
  cases hb : b.ready with
  | true => rwa [Engine.whenReady_of_ready f (hready.trans hb), Engine.whenReady_of_ready f hb]
  | false =>
    rw [Engine.whenReady_of_not_ready f (hready.trans hb), Engine.whenReady_of_not_ready f hb]
    exact h.refuse _ _

/-- ENCB, ENC, STEP and RDROT read nothing but the live state and READY. -/
theorem Engine.SameLive.command {a b : Engine N} (h : a.SameLive b) (hready : a.ready = b.ready) {i : Instr}
    (hi : (∃ d, i = .encb d) ∨ (∃ d, i = .enc d) ∨ i = .step ∨ ∃ k j, i = .rdrot k j) :
    SameOutcome (a.command i) (b.command i) := by
  rcases hi with ⟨d, rfl⟩ | ⟨d, rfl⟩ | rfl | ⟨k, j, rfl⟩
  · exact h.whenReady hready (f := fun e => e.respond (e.encipherByte d))
      ⟨congrArg dataResponse (h.encipherByte_eq d), h⟩
  · exact h.whenReady hready (f := fun e => e.stepRotors.respond (e.encipherByte d))
      ⟨congrArg dataResponse (h.encipherByte_eq d), h.stepRotors⟩
  · exact h.whenReady hready (f := fun e => e.stepRotors.respond 0#8) ⟨rfl, h.stepRotors⟩
  · have hrot : ∀ k, a.rotByte k j = b.rotByte k j := fun k => by rw [Engine.rotByte, Engine.rotByte, h.1]
    rw [Engine.command, Engine.command, Engine.rdrot]
    by_cases hk : k.toNat < N
    · rw [Engine.withRotor_of_lt hk, Engine.withRotor_of_lt hk]
      exact h.whenReady hready ⟨congrArg dataResponse (hrot _), h⟩
    · rw [Engine.withRotor_of_le (not_lt.1 hk), Engine.withRotor_of_le (not_lt.1 hk)]
      exact h.refuse _ _

/-! ## A load as the check of its cell and the write to it -/

/-- The cell is one of the configuration of an engine with `N` rotors (R53 step 3). -/
def ConfigCell.inRange (N : Nat) : ConfigCell → Bool
  | .rot k _ => rotorLegal N k
  | .off k => rotorLegal N k
  | .ref _ => true
  | .pan _ => true

/-- The rotor tables after a symbol is written to a cell, whether the cell is theirs or not. -/
def ConfigCell.writeRot (v : Nibble) (T : Vector Table N) : ConfigCell → Vector Table N
  | .rot k i => if h : k.toNat < N then T.set k.toNat (setCell T[k.toNat] i v) else T
  | .off _ => T
  | .ref _ => T
  | .pan _ => T

/-- The offsets after a symbol is written to a cell. -/
def ConfigCell.writeOff (v : Nibble) (T : Vector Nibble N) : ConfigCell → Vector Nibble N
  | .off k => if h : k.toNat < N then T.set k.toNat v else T
  | .rot _ _ => T
  | .ref _ => T
  | .pan _ => T

/-- The reflector table after a symbol is written to a cell. -/
def ConfigCell.writeRef (v : Nibble) (T : Table) : ConfigCell → Table
  | .ref i => setCell T i v
  | .rot _ _ => T
  | .off _ => T
  | .pan _ => T

/-- The panel table after a symbol is written to a cell. -/
def ConfigCell.writePan (v : Nibble) (T : Table) : ConfigCell → Table
  | .pan i => setCell T i v
  | .rot _ _ => T
  | .off _ => T
  | .ref _ => T

/-- The write of a load: the cell takes the symbol (R85 to R88). -/
def Engine.writeCell (x : ConfigCell) (v : Nibble) (e : Engine N) : Engine N :=
  { e with cfgRot := x.writeRot v e.cfgRot, cfgOff := x.writeOff v e.cfgOff, cfgRef := x.writeRef v e.cfgRef,
           cfgPan := x.writePan v e.cfgPan }

/-- The check of a load: a cell of a rotor that does not exist is refused (R134). -/
def Engine.checkCell (x : ConfigCell) (e : Engine N) : Engine N :=
  if x.inRange N then e else e.recordRefusal .illegalCmd 0#3

theorem Engine.checkCell_of_inRange {x : ConfigCell} (h : x.inRange N = true) (e : Engine N) :
    e.checkCell x = e := if_pos h

theorem Engine.checkCell_of_not_inRange {x : ConfigCell} (h : x.inRange N = false) (e : Engine N) :
    e.checkCell x = e.recordRefusal .illegalCmd 0#3 := if_neg (by simp [h])

/-- A cell of no rotor is no cell of the configuration, and nothing is written. -/
theorem Engine.writeCell_of_not_inRange {x : ConfigCell} (h : x.inRange N = false) (v : Nibble) (e : Engine N) :
    e.writeCell x v = e := by
  cases x with
  | rot k i =>
    have hk : ¬ k.toNat < N := by simpa [ConfigCell.inRange, rotorLegal] using h
    rw [Engine.writeCell, ConfigCell.writeRot, dif_neg hk]
    rfl
  | off k =>
    have hk : ¬ k.toNat < N := by simpa [ConfigCell.inRange, rotorLegal] using h
    rw [Engine.writeCell, ConfigCell.writeOff, dif_neg hk]
    rfl
  | ref | pan => simp [ConfigCell.inRange] at h

theorem Engine.writeCell_rot {k : BitVec 3} (hk : k.toNat < N) (i v : Nibble) (e : Engine N) :
    e.writeCell (.rot k i) v = e.setCfgRot ⟨k.toNat, hk⟩ i v := by
  rw [Engine.writeCell, ConfigCell.writeRot, dif_pos hk]
  rfl

theorem Engine.writeCell_off {k : BitVec 3} (hk : k.toNat < N) (v : Nibble) (e : Engine N) :
    e.writeCell (.off k) v = e.setCfgOff ⟨k.toNat, hk⟩ v := by
  rw [Engine.writeCell, ConfigCell.writeOff, dif_pos hk]
  rfl

/-- R85 to R88: a load is the check of its cell and then the write to it. -/
theorem Engine.command_of_configTarget {i : Instr} {x : ConfigCell} (h : configTarget i = some x) :
    ∃ v, ∀ e : Engine N, (e.command i).1 = (e.checkCell x).writeCell x v := by
  cases i with
  | ldrot k i v =>
    obtain rfl : ConfigCell.rot k i = x := by simpa [configTarget] using h
    refine ⟨v, fun e => ?_⟩
    obtain ⟨hk, hload⟩ | ⟨hk, hload⟩ := e.ldrot_cases k i v <;> rw [Engine.command, hload]
    · have hin : (ConfigCell.rot k i).inRange N = true := decide_eq_true hk
      rw [Engine.checkCell_of_inRange hin, Engine.writeCell_rot hk]
    · have hout : (ConfigCell.rot k i).inRange N = false := decide_eq_false (not_lt.2 hk)
      rw [Engine.checkCell_of_not_inRange hout, Engine.writeCell_of_not_inRange hout]
  | ldoff k v =>
    obtain rfl : ConfigCell.off k = x := by simpa [configTarget] using h
    refine ⟨v, fun e => ?_⟩
    obtain ⟨hk, hload⟩ | ⟨hk, hload⟩ := e.ldoff_cases k v <;> rw [Engine.command, hload]
    · have hin : (ConfigCell.off k).inRange N = true := decide_eq_true hk
      rw [Engine.checkCell_of_inRange hin, Engine.writeCell_off hk]
    · have hout : (ConfigCell.off k).inRange N = false := decide_eq_false (not_lt.2 hk)
      rw [Engine.checkCell_of_not_inRange hout, Engine.writeCell_of_not_inRange hout]
  | ldref i v =>
    obtain rfl : ConfigCell.ref i = x := by simpa [configTarget] using h
    exact ⟨v, fun e => by rw [Engine.command, Engine.ldref, Engine.respond_engine, Engine.setCfgRef]; rfl⟩
  | ldpan i v =>
    obtain rfl : ConfigCell.pan i = x := by simpa [configTarget] using h
    exact ⟨v, fun e => by rw [Engine.command, Engine.ldpan, Engine.respond_engine, Engine.setCfgPan]; rfl⟩
  | nop | init | encb | step | enc | rdst | rdctr | rdrot => simp [configTarget] at h

/-! ## Writes to different cells -/

theorem setCell_comm (T : Table) {i j : Nibble} (h : i ≠ j) (v u : Nibble) :
    setCell (setCell T i v) j u = setCell (setCell T j u) i v := by
  apply table_ext
  intro c
  simp only [cell_setCell]
  split_ifs with hj hi <;> simp_all

theorem ConfigCell.writeRot_comm {x y : ConfigCell} (h : x ≠ y) (v u : Nibble) (T : Vector Table N) :
    y.writeRot u (x.writeRot v T) = x.writeRot v (y.writeRot u T) := by
  cases x with
  | rot k i =>
    cases y with
    | rot l j =>
      by_cases hk : k.toNat < N
      · by_cases hl : l.toNat < N
        · by_cases hkl : k.toNat = l.toNat
          · obtain rfl : k = l := BitVec.eq_of_toNat_eq hkl
            have hij : i ≠ j := fun hij => h (congrArg (ConfigCell.rot k) hij)
            simp [ConfigCell.writeRot, hk, setCell_comm _ hij]
          · simp [ConfigCell.writeRot, hk, hl, Vector.getElem_set_ne, hkl, Ne.symm hkl, Vector.set_comm _ _ hkl]
        · simp [ConfigCell.writeRot, hl]
      · simp [ConfigCell.writeRot, hk]
    | off | ref | pan => rfl
  | off | ref | pan => rfl

theorem ConfigCell.writeOff_comm {x y : ConfigCell} (h : x ≠ y) (v u : Nibble) (T : Vector Nibble N) :
    y.writeOff u (x.writeOff v T) = x.writeOff v (y.writeOff u T) := by
  cases x with
  | off k =>
    cases y with
    | off l =>
      have hkl : k.toNat ≠ l.toNat := fun hkl => h (congrArg ConfigCell.off (BitVec.eq_of_toNat_eq hkl))
      by_cases hk : k.toNat < N <;> by_cases hl : l.toNat < N <;>
        simp [ConfigCell.writeOff, hk, hl, Vector.set_comm _ _ hkl]
    | rot | ref | pan => rfl
  | rot | ref | pan => rfl

theorem ConfigCell.writeRef_comm {x y : ConfigCell} (h : x ≠ y) (v u : Nibble) (T : Table) :
    y.writeRef u (x.writeRef v T) = x.writeRef v (y.writeRef u T) := by
  cases x with
  | ref i =>
    cases y with
    | ref j => exact setCell_comm T (fun hij => h (congrArg ConfigCell.ref hij)) v u
    | rot | off | pan => rfl
  | rot | off | pan => rfl

theorem ConfigCell.writePan_comm {x y : ConfigCell} (h : x ≠ y) (v u : Nibble) (T : Table) :
    y.writePan u (x.writePan v T) = x.writePan v (y.writePan u T) := by
  cases x with
  | pan i =>
    cases y with
    | pan j => exact setCell_comm T (fun hij => h (congrArg ConfigCell.pan hij)) v u
    | rot | off | ref => rfl
  | rot | off | ref => rfl

theorem Engine.writeCell_comm {x y : ConfigCell} (h : x ≠ y) (v u : Nibble) :
    Function.Commute (Engine.writeCell (N := N) x v) (Engine.writeCell y u) := by
  intro e
  simp only [Engine.writeCell, ConfigCell.writeRot_comm h, ConfigCell.writeOff_comm h, ConfigCell.writeRef_comm h,
    ConfigCell.writePan_comm h]

theorem Engine.writeCell_checkCell_comm (x y : ConfigCell) (v : Nibble) :
    Function.Commute (Engine.writeCell (N := N) x v) (Engine.checkCell y) := by
  intro e
  unfold Engine.checkCell Engine.recordRefusal
  cases hy : y.inRange N <;> cases herr : e.err <;> simp [Engine.writeCell, herr]

theorem Engine.checkCell_comm (x y : ConfigCell) :
    Function.Commute (Engine.checkCell (N := N) x) (Engine.checkCell y) := by
  intro e
  unfold Engine.checkCell
  cases hx : x.inRange N <;> cases hy : y.inRange N <;> simp

/-! ## The obligations -/

/-- Settles O32: a load keeps the live state and READY, and the other commands read nothing else. -/
theorem configurationWritesWaitForInit : Obligations.ConfigurationWritesWaitForInit := by
  intro N e load use hload huse
  have hne : load ≠ .init ∧ load ≠ .step ∧ ∀ d, load ≠ .enc d := by
    refine ⟨?_, ?_, fun d => ?_⟩ <;> rintro rfl <;> exact hload rfl
  obtain ⟨hinit, hstep, henc⟩ := hne
  obtain ⟨hlive, hready⟩ := (e.command_effect load).keeps_live hinit hstep henc
  exact ⟨hlive, hlive.command hready huse⟩

/-- Settles O33: a load is a check and a write; writes to different cells commute, and a check commutes with every
write and check, since all refusals of loads record the same code. -/
theorem loadsOfDifferentCellsCommute : Obligations.LoadsOfDifferentCellsCommute := by
  intro N e a b x y ha hb hne
  obtain ⟨v, hv⟩ := Engine.command_of_configTarget (N := N) ha
  obtain ⟨u, hu⟩ := Engine.command_of_configTarget (N := N) hb
  have hwrites := (Engine.writeCell_comm (N := N) hne.symm u v).comp_right (Engine.writeCell_checkCell_comm y x u)
  have hchecks := (Engine.writeCell_checkCell_comm (N := N) x y v).symm.comp_right (Engine.checkCell_comm y x)
  rw [hv, hu, hu, hv]
  exact hwrites.comp_left hchecks e

end Sys2Proof.Machine
end

/-! Proofs: sessions. A stream steps once per byte, the rotors' positions have a closed form, and nothing of what
went before an INIT shows after it (43_rotor_stepper.md R113 to R116, 70_reset_and_hazards.md R160). -/

section
namespace Sys2Proof.Machine

variable {N : Nat}

/-! ## Stepping events -/

theorem Engine.steps_succ_eq_steps_stepRotors (n : Nat) (e : Engine N) :
    Engine.steps (n + 1) e = Engine.steps n e.stepRotors := by
  induction n with
  | zero => rfl
  | succ n ih => rw [Engine.steps, ih]; rfl

/-- R110, R114: after `n` events from `CTR = 0` the counter is `n` modulo 2^32. -/
theorem Engine.toNat_steps_ctr {e : Engine N} (h : e.ctr = 0) (n : Nat) :
    (Engine.steps n e).ctr.toNat = n % 2 ^ 32 := by
  induction n with
  | zero => simp [Engine.steps, h]
  | succ n ih => rw [Engine.steps, Engine.toNat_stepRotors_ctr, ih, Nat.mod_add_mod]

/-- The carry test on the counter is the one on the number of events, past the wrap too: 16^k divides 2^32. -/
theorem Engine.steps_ctr_mod_sixteen_pow {e : Engine N} (h : e.ctr = 0) (n : Nat) {k : Nat} (hk : k ≤ 8) :
    (Engine.steps n e).ctr.toNat % 16 ^ k = n % 16 ^ k := by
  have hdvd : 16 ^ k ∣ 2 ^ 32 := pow_dvd_pow (16 : Nat) hk
  rw [Engine.toNat_steps_ctr h, Nat.mod_mod_of_dvd _ hdvd]

/-- R114: rotor `k` has made one rotation for each multiple of 16^k passed. -/
theorem Engine.steps_rot_getElem {e : Engine N} (h : e.ctr = 0) (n : Nat) (k : Fin N) (hk : k.val ≤ 8) :
    (Engine.steps n e).rot[k] = rotl e.rot[k] (n / 16 ^ k.val) := by
  induction n with
  | zero => rw [Nat.zero_div, rotl_zero]; rfl
  | succ n ih =>
    rw [Engine.steps, Engine.stepRotors_rot_getElem, ← Engine.steps, Engine.steps_ctr_mod_sixteen_pow h _ hk, ih,
      Nat.succ_div]
    by_cases hcarry : 16 ^ k.val ∣ n + 1
    · rw [if_pos (Nat.mod_eq_zero_of_dvd hcarry), if_pos hcarry, rotorRotate, rotl_rotl]
    · rw [if_neg (fun hmod => hcarry (Nat.dvd_of_mod_eq_zero hmod)), if_neg hcarry, Nat.add_zero]

/-! ## Streams -/

theorem Engine.accept_step_of_ready {e : Engine N} (h : e.ready = true) :
    e.accept (encode .step) = (e.stepRotors, dataResponse 0#8) :=
  (e.accept_encode (decode_encode .step)).trans (Engine.stepOnce_of_ready h)

theorem Engine.session_streamWords_engine {e : Engine N} (h : e.ready = true) (ds : List Byte) :
    (e.session (streamWords ds)).1 = Engine.steps ds.length e := by
  induction ds generalizing e with
  | nil => rfl
  | cons d ds ih =>
    have hrest := ih (e := e.stepRotors) h
    rw [Engine.session_streamWords_cons h, hrest, List.length_cons, Engine.steps_succ_eq_steps_stepRotors]

theorem Engine.session_replicate_step_engine {e : Engine N} (h : e.ready = true) (n : Nat) :
    (e.session (List.replicate n (encode .step))).1 = Engine.steps n e := by
  induction n generalizing e with
  | zero => rfl
  | succ n ih =>
    have hrest := ih (e := e.stepRotors) h
    rw [List.replicate_succ, Engine.session, Engine.accept_step_of_ready h, hrest,
      Engine.steps_succ_eq_steps_stepRotors]

/-- R113: byte `j` of a stream is enciphered after `j` steps. -/
theorem Engine.session_streamWords_getElem? {e : Engine N} (h : e.ready = true) (ds : List Byte) (j : Nat)
    (hj : j < ds.length) :
    (e.session (streamWords ds)).2[j]? = some (dataResponse ((Engine.steps j e).encipherByte ds[j])) := by
  induction ds generalizing e j with
  | nil => simp at hj
  | cons d ds ih =>
    rw [Engine.session_streamWords_cons h]
    cases j with
    | zero => rfl
    | succ j =>
      have hrest := ih (e := e.stepRotors) h j (Nat.lt_of_succ_lt_succ hj)
      rw [List.getElem?_cons_succ, hrest, Engine.steps_succ_eq_steps_stepRotors, List.getElem_cons_succ]

/-! ## What INIT leaves of the engine before it -/

/-- The machine constructed holds the configuration, the sticky record and what is built from the configuration. -/
theorem Engine.SameConfig.construct_eq {a b : Engine N} (h : a.SameConfig b) (hrec : a.SameRecord b) :
    a.construct = b.construct := by
  obtain ⟨hrot, hoff, href, hpan⟩ := h
  obtain ⟨herr, hcode, hinfo⟩ := hrec
  simp [Engine.construct, hrot, hoff, href, hpan, herr, hcode, hinfo]

/-! ## Live tables before a successful INIT -/

/-- The engine with the live tables of another. -/
def Engine.withTablesOf (e l : Engine N) : Engine N :=
  { e with rot := l.rot, panO := l.panO, panW := l.panW, refW := l.refW }

/-- What the live tables do not show in: the responses agree, and the engines do too, or they differ in the live
tables only and READY is still 0. -/
def Unobserved (l : Engine N) (p q : Engine N × RspWord) : Prop :=
  q.2 = p.2 ∧ (q.1 = p.1 ∨ p.1.ready = false ∧ q.1 = p.1.withTablesOf l)

theorem Engine.unobserved_respond {e : Engine N} (h : e.ready = false) (l : Engine N) (d : Byte) :
    Unobserved l (e.respond d) ((e.withTablesOf l).respond d) := ⟨rfl, .inr ⟨h, rfl⟩⟩

theorem Engine.recordRefusal_withTablesOf (e l : Engine N) (c : RefuseCode) (info : BitVec 3) :
    (e.withTablesOf l).recordRefusal c info = (e.recordRefusal c info).withTablesOf l := by
  unfold Engine.recordRefusal
  cases herr : e.err <;> simp [Engine.withTablesOf, herr]

theorem Engine.unobserved_refuse {e : Engine N} (h : e.ready = false) (l : Engine N) (c : RefuseCode)
    (info : BitVec 3) : Unobserved l (e.refuse c info) ((e.withTablesOf l).refuse c info) :=
  ⟨rfl, .inr ⟨by simpa using h, e.recordRefusal_withTablesOf l c info⟩⟩

theorem Engine.unobserved_whenReady {e : Engine N} (h : e.ready = false) (l : Engine N)
    (f : Engine N → Engine N × RspWord) :
    Unobserved l (Engine.whenReady f e) (Engine.whenReady f (e.withTablesOf l)) := by
  have hl : (e.withTablesOf l).ready = false := h
  rw [Engine.whenReady_of_not_ready f h, Engine.whenReady_of_not_ready f hl]
  exact Engine.unobserved_refuse h l _ _

theorem Engine.unobserved_withRotor {e : Engine N} (h : e.ready = false) (l : Engine N) (k : BitVec 3)
    {f : Fin N → Engine N → Engine N × RspWord} (hf : ∀ k, Unobserved l (f k e) (f k (e.withTablesOf l))) :
    Unobserved l (Engine.withRotor k f e) (Engine.withRotor k f (e.withTablesOf l)) := by
  by_cases hk : k.toNat < N
  · rw [Engine.withRotor_of_lt hk, Engine.withRotor_of_lt hk]
    exact hf _
  · rw [Engine.withRotor_of_le (not_lt.1 hk), Engine.withRotor_of_le (not_lt.1 hk)]
    exact Engine.unobserved_refuse h l _ _

theorem Engine.unobserved_init (e l : Engine N) : Unobserved l e.init (e.withTablesOf l).init := by
  have hfail : (e.withTablesOf l).initFailure = e.initFailure := rfl
  obtain ⟨c, info, hsome, hinit⟩ | ⟨hnone, hinit⟩ := e.init_cases
  · rw [Engine.init_of_failure hsome, Engine.init_of_failure (hfail.trans hsome)]
    exact Engine.unobserved_refuse (e := { e with ready := false }) rfl l c info
  · rw [Engine.init_of_configOk (Engine.initFailure_none.1 hnone),
      Engine.init_of_configOk (Engine.initFailure_none.1 (hfail.trans hnone))]
    exact ⟨rfl, .inl rfl⟩

theorem Engine.setCfgRef_withTablesOf (e l : Engine N) (i v : Nibble) :
    (e.withTablesOf l).setCfgRef i v = (e.setCfgRef i v).withTablesOf l := by
  simp only [Engine.setCfgRef, Engine.withTablesOf]

theorem Engine.setCfgPan_withTablesOf (e l : Engine N) (i v : Nibble) :
    (e.withTablesOf l).setCfgPan i v = (e.setCfgPan i v).withTablesOf l := by
  simp only [Engine.setCfgPan, Engine.withTablesOf]

/-- R22: with READY = 0 a command refuses to look at the live tables, or overwrites them (INIT). -/
theorem Engine.unobserved_command {e : Engine N} (h : e.ready = false) (l : Engine N) (i : Instr) :
    Unobserved l (e.command i) ((e.withTablesOf l).command i) := by
  cases i with
  | nop => exact e.unobserved_respond h l _
  | ldrot k i v => exact Engine.unobserved_withRotor h l k fun k => ⟨rfl, .inr ⟨h, rfl⟩⟩
  | ldoff k v => exact Engine.unobserved_withRotor h l k fun k => ⟨rfl, .inr ⟨h, rfl⟩⟩
  | ldref i v => exact ⟨rfl, .inr ⟨(e.setCfgRef_ready i v).trans h, e.setCfgRef_withTablesOf l i v⟩⟩
  | ldpan i v => exact ⟨rfl, .inr ⟨(e.setCfgPan_ready i v).trans h, e.setCfgPan_withTablesOf l i v⟩⟩
  | init => exact e.unobserved_init l
  | encb d => exact Engine.unobserved_whenReady h l fun e => e.respond (e.encipherByte d)
  | step => exact Engine.unobserved_whenReady h l fun e => e.stepRotors.respond 0#8
  | enc d => exact Engine.unobserved_whenReady h l fun e => e.stepRotors.respond (e.encipherByte d)
  | rdst => exact ⟨rfl, .inr ⟨h, rfl⟩⟩
  | rdctr b => exact ⟨rfl, .inr ⟨h, rfl⟩⟩
  | rdrot k i => exact Engine.unobserved_withRotor h l k fun k => Engine.unobserved_whenReady h l _

theorem Engine.unobserved_accept {e : Engine N} (h : e.ready = false) (l : Engine N) (w : CmdWord) :
    Unobserved l (e.accept w) ((e.withTablesOf l).accept w) := by
  unfold Engine.accept
  split
  · exact Engine.unobserved_command h l _
  · exact Engine.unobserved_refuse h l _ _

theorem Engine.session_withTablesOf {e : Engine N} (h : e.ready = false) (l : Engine N) (ws : List CmdWord) :
    ((e.withTablesOf l).session ws).2 = (e.session ws).2 := by
  induction ws generalizing e with
  | nil => rfl
  | cons w ws ih =>
    obtain ⟨hresp, hsame | ⟨hready, htables⟩⟩ := Engine.unobserved_accept h l w
    · rw [Engine.session, Engine.session, hresp, hsame]
    · rw [Engine.session, Engine.session, hresp, htables, ih hready]

/-! ## The obligations -/

/-- Settles O50: each rotor has made one turn for each multiple of 16^k passed; 16^(k+1) steps are 16 turns of it, and
16^N steps a multiple of 16 turns of every rotor. -/
theorem closedFormOfRotorPositions : Obligations.ClosedFormOfRotorPositions := by
  intro N e c hN hok
  have hinit : (e.init).1 = e.construct := by rw [Engine.init_of_configOk hok]; rfl
  have hrot : ∀ (n : Nat) (k : Fin N), (Engine.steps n e.construct).rot[k] =
      rotl e.cfgRot[k] ((e.cfgOff[k].toNat + n / 16 ^ k.val) % 16) := fun n k => by
    have hk : k.val ≤ 8 := k.isLt.le.trans hN
    have hbuilt : e.construct.rot[k] = rotl e.cfgRot[k] e.cfgOff[k].toNat := by simp
    rw [Engine.steps_rot_getElem e.construct_ctr n k hk, hbuilt, rotl_rotl, rotl_mod]
  rw [hinit]
  refine ⟨hrot c, Engine.toNat_steps_ctr e.construct_ctr c, fun k => ?_, ?_⟩
  · have hturn : 16 ^ (k.val + 1) / 16 ^ k.val = 16 := by
      rw [pow_succ, Nat.mul_div_cancel_left _ (by positivity)]
    have hzero : (Engine.steps 0 e.construct).rot[k] = e.construct.rot[k] := rfl
    rw [← hzero, hrot, hrot, hturn, Nat.add_mod_right, Nat.zero_div, Nat.add_zero]
  · apply Vector.ext
    intro k hk
    obtain ⟨m, hm⟩ : 16 ^ (k + 1) ∣ 16 ^ N := pow_dvd_pow 16 hk
    have hturns : (c + 16 ^ N) / 16 ^ k = c / 16 ^ k + 16 * m := by
      rw [hm, pow_succ, mul_assoc, Nat.add_mul_div_left _ _ (by positivity)]
    have hafter := hrot (c + 16 ^ N) ⟨k, hk⟩
    rw [hturns, ← Nat.add_assoc, Nat.add_mul_mod_self_left] at hafter
    exact hafter.trans (hrot c ⟨k, hk⟩).symm

/-- Settles O51: by induction on the stream, the engine of the rest being one step further. -/
theorem streamStepsOncePerByte : Obligations.StreamStepsOncePerByte := by
  intro N e bytes hready
  refine ⟨Engine.session_streamWords_engine hready bytes, ?_, Engine.session_streamWords_getElem? hready bytes⟩
  rw [Engine.length_session, streamWords, List.length_map]

/-- Settles O52: STEP and ENC make the same stepping event, so both sequences step the machine constructed as often. -/
theorem stepsResumeASession : Obligations.StepsResumeASession := by
  intro N e bytes hok
  rw [Engine.session_init_of_configOk hok, Engine.session_init_of_configOk hok,
    Engine.session_replicate_step_engine e.construct_ready, Engine.session_streamWords_engine e.construct_ready]

/-- Settles O55: with READY = 0 a command that would look at the live tables is refused, and an INIT that succeeds
overwrites them. -/
theorem unspecifiedTablesAreUnobservable : Obligations.UnspecifiedTablesAreUnobservable := by
  intro N a b ws hready htables
  have hb : a.withTablesOf b = b := htables
  rw [← Engine.session_withTablesOf hready b ws, hb]

/-- Settles O56: INIT constructs the same engine, in every element, from the two. -/
theorem sessionsDependOnConfigurationOnly : Obligations.SessionsDependOnConfigurationOnly := by
  intro N a b ws hok hsame hrec
  rw [Engine.session_init_of_configOk hok, Engine.session_init_of_configOk (hsame.symm.configOk hok),
    hsame.construct_eq hrec]

end Sys2Proof.Machine
end
